-- ==== Sys2Proof/Word.lean ====
section
/-!
DEFINITION. The words of the block: a 32-bit data or address word (spec/00_scope.md R9, DATA_W and ADDR_W) and a byte
(HDR_W, AP_W, BANK_W). All values are unsigned (R10).
-/
namespace Sys2Proof

/-- A 32-bit word: a data word, a register or memory address, a command word. -/
abbrev Word := BitVec 32

/-- An 8-bit value: a request header, an AP index, a bank. -/
abbrev Byte := BitVec 8

end Sys2Proof
end

