-- ==== Sys2Proof/Syntax.lean ====
section
/-!
DEFINITION. The instructions: one constructor of Instr for each of the 24 rows of spec/opcode_table.json, and the two forms
in which they are encoded: the command triple of the command port (spec/30_encoding.md R90) and the request header with the
data word of the wire (R95, R101).
-/
namespace Sys2Proof

/-- The command triple (spec/30_encoding.md R90). -/
structure Command where
  word : Word
  addr : Word
  data : Word
  deriving DecidableEq, Repr, Inhabited

/-- The fields of a request header the block chooses (spec/30_encoding.md R95): APnDP, RnW and the 2-bit register select
`a`, whose bit 0 is A2 and bit 1 is A3. -/
structure Request where
  apndp : Bool
  rnw : Bool
  a : BitVec 2
  deriving DecidableEq, Repr, Inhabited

/-- An instruction as bits: a command on the command port, or a request header on the wire with the word its data phase
carries (a read header carries none: the word is then not used). -/
inductive Encoded where
  | command (c : Command)
  | frame (header : Byte) (data : Word)
  deriving DecidableEq, Repr

/-- The rows of spec/opcode_table.json. The first eight are commands (format CMD), the others request headers (format
SWD_REQ). Operand widths are those of the encoding, so no constructor admits an operand the encoding lacks. -/
inductive Instr where
  /-- LINE_RESET (spec/41_wire_codec.md R126). -/
  | lineReset
  /-- WIRE_READ (R138): APnDP and register select. -/
  | wireRead (apndp : Bool) (a : BitVec 2)
  /-- WIRE_WRITE (R139): APnDP, register select, data word. -/
  | wireWrite (apndp : Bool) (a : BitVec 2) (data : Word)
  /-- SELECT_BANK (spec/42_transaction.md R162): AP index and bank, the bank's low four bits not significant. -/
  | selectBank (ap bank : Byte)
  /-- POWER_UP (R163). -/
  | powerUp
  /-- MEM_READ (R165): target address. -/
  | memRead (addr : Word)
  /-- MEM_WRITE (R166): target address and data word. -/
  | memWrite (addr data : Word)
  /-- MEM_WRITE_HALF (R167): target address and halfword. -/
  | memWriteHalf (addr : Word) (half : BitVec 16)
  /-- REQ_DP_WRITE_ABORT (spec/30_encoding.md R97), as are the rest; a write header carries its data word. -/
  | reqDpWriteAbort (data : Word)
  | reqDpWriteCtrlstat (data : Word)
  | reqDpWriteSelect (data : Word)
  | reqDpWrite0C (data : Word)
  | reqDpReadIdcode
  | reqDpReadCtrlstat
  | reqDpRead08
  | reqDpReadRdbuff
  | reqApWriteCsw (data : Word)
  | reqApWriteTar (data : Word)
  | reqApWrite08 (data : Word)
  | reqApWriteDrw (data : Word)
  | reqApReadCsw
  | reqApReadTar
  | reqApRead08
  | reqApReadDrw
  deriving DecidableEq, Repr

end Sys2Proof
end

