-- ==== Sys2Proof/WellFormed.lean ====
section
/-!
DEFINITION. Which words are well formed: the legal command words (spec/30_encoding.md R93) and the legal request headers
(R98), written as the rules state them and not through the decoder. The operands of Instr have the widths of their fields,
so every term of Instr is well formed; what can be ill formed is a word.
-/
namespace Sys2Proof

/-- The OP field of a command word (spec/30_encoding.md R91). -/
def Command.op (c : Command) : BitVec 4 := c.word.extractLsb' 0 4

/-- OP is one of 0x1 to 0x8 (spec/30_encoding.md R92, R93: 0x0 and 0x9 to 0xF are reserved). -/
def Command.opDefined (c : Command) : Bool := decide (1#4 ≤ c.op) && decide (c.op ≤ 8#4)

/-- Bit 7 and bits [31:24] are 0 (spec/30_encoding.md R91, R93). -/
def Command.reservedZero (c : Command) : Bool :=
  !c.word.getLsbD 7 && decide (c.word.extractLsb' 24 8 = 0#8)

/-- APNDP and A (bits [6:4]) are 0 unless OP is WIRE_READ or WIRE_WRITE (spec/30_encoding.md R93). -/
def Command.registerFieldsOk (c : Command) : Bool :=
  decide (c.op = 2#4) || decide (c.op = 3#4) || decide (c.word.extractLsb' 4 3 = 0#3)

/-- AP and BANK (bits [23:8]) are 0 unless OP is SELECT_BANK (spec/30_encoding.md R93). -/
def Command.bankFieldsOk (c : Command) : Bool :=
  decide (c.op = 4#4) || decide (c.word.extractLsb' 8 16 = 0#16)

/-- A command word that is not illegal by spec/30_encoding.md R93; cmd.addr and cmd.data are never checked. -/
def Command.legal (c : Command) : Bool :=
  c.opDefined && c.reservedZero && c.registerFieldsOk && c.bankFieldsOk

/-- Header bit 0, Start, is 1 (spec/30_encoding.md R95, R98). -/
def headerStartOk (h : Byte) : Bool := h.getLsbD 0

/-- Header bit 6, Stop, is 0. -/
def headerStopOk (h : Byte) : Bool := !h.getLsbD 6

/-- Header bit 7, Park, is 1. -/
def headerParkOk (h : Byte) : Bool := h.getLsbD 7

/-- Header bits 1 to 5 hold an even number of ones (spec/30_encoding.md R98). -/
def headerParityOk (h : Byte) : Bool :=
  !(h.getLsbD 1 ^^ h.getLsbD 2 ^^ h.getLsbD 3 ^^ h.getLsbD 4 ^^ h.getLsbD 5)

/-- A request header the block can emit (spec/30_encoding.md R98). -/
def headerLegal (h : Byte) : Bool :=
  headerStartOk h && headerStopOk h && headerParkOk h && headerParityOk h

/-- Well-formed bits of an instruction. -/
def Encoded.wellFormed : Encoded → Bool
  | .command c => c.legal
  | .frame h _ => headerLegal h

end Sys2Proof
end

