-- ==== Sys2Proof/Decode.lean ====
section
/-!
DEFINITION. Decoding and encoding: the command words (spec/30_encoding.md R91 to R94, R103, R104, R108) and the request
headers (R95 to R98). The decoder reads the table of R94 and R97; the encoder is written from the field layouts of R91 and
R96.
-/
namespace Sys2Proof

/-- `parity4` (spec/00_scope.md R13). -/
def parity4 (apndp rnw a2 a3 : Bool) : Bool := apndp ^^ rnw ^^ a2 ^^ a3

/-- A bit as a byte, for the shifts of spec/30_encoding.md R96. -/
def bitByte (b : Bool) : Byte := (BitVec.ofBool b).setWidth 8

/-- A bit as a word, for the field placements of spec/30_encoding.md R108. -/
def bitWord (b : Bool) : Word := (BitVec.ofBool b).setWidth 32

/-- The parity bit of a request header (spec/30_encoding.md R95, bit 5). -/
def Request.parity (r : Request) : Bool := parity4 r.apndp r.rnw (r.a.getLsbD 0) (r.a.getLsbD 1)

/-- `Header(apndp, rnw, a)` (spec/30_encoding.md R96). -/
def Request.header (r : Request) : Byte :=
  0x81#8 ||| (bitByte r.apndp <<< 1) ||| (bitByte r.rnw <<< 2) ||| (bitByte (r.a.getLsbD 0) <<< 3)
    ||| (bitByte (r.a.getLsbD 1) <<< 4) ||| (bitByte r.parity <<< 5)

/-- The fields of a header byte, by the bit numbers of spec/30_encoding.md R95. -/
def requestOfHeader (h : Byte) : Request := ⟨h.getLsbD 1, h.getLsbD 2, h.extractLsb' 3 2⟩

/-- The instruction of a command triple (spec/30_encoding.md R92 to R94, R103, R104): `none` on an illegal word. Bits of
`addr` and `data` that the command does not use are ignored (R93). -/
def decodeCommand (c : Command) : Option Instr :=
  if c.word = 0x00000001#32 then some .lineReset
  else if c.word &&& 0xFFFFFF8F#32 = 0x00000002#32 then
    some (.wireRead (c.word.getLsbD 4) (c.word.extractLsb' 5 2))
  else if c.word &&& 0xFFFFFF8F#32 = 0x00000003#32 then
    some (.wireWrite (c.word.getLsbD 4) (c.word.extractLsb' 5 2) c.data)
  else if c.word &&& 0xFF0000FF#32 = 0x00000004#32 then
    some (.selectBank (c.word.extractLsb' 16 8) (c.word.extractLsb' 8 8))
  else if c.word = 0x00000005#32 then some .powerUp
  else if c.word = 0x00000006#32 then some (.memRead c.addr)
  else if c.word = 0x00000007#32 then some (.memWrite c.addr c.data)
  else if c.word = 0x00000008#32 then some (.memWriteHalf c.addr (c.data.extractLsb' 0 16))
  else none

/-- The instruction of a request header and the word of its data phase (spec/30_encoding.md R97): `none` on a byte the block
never emits (R98). -/
def decodeFrame (h : Byte) (data : Word) : Option Instr :=
  if h = 0x81#8 then some (.reqDpWriteAbort data)
  else if h = 0xA9#8 then some (.reqDpWriteCtrlstat data)
  else if h = 0xB1#8 then some (.reqDpWriteSelect data)
  else if h = 0x99#8 then some (.reqDpWrite0C data)
  else if h = 0xA5#8 then some .reqDpReadIdcode
  else if h = 0x8D#8 then some .reqDpReadCtrlstat
  else if h = 0x95#8 then some .reqDpRead08
  else if h = 0xBD#8 then some .reqDpReadRdbuff
  else if h = 0xA3#8 then some (.reqApWriteCsw data)
  else if h = 0x8B#8 then some (.reqApWriteTar data)
  else if h = 0x93#8 then some (.reqApWrite08 data)
  else if h = 0xBB#8 then some (.reqApWriteDrw data)
  else if h = 0x87#8 then some .reqApReadCsw
  else if h = 0xAF#8 then some .reqApReadTar
  else if h = 0xB7#8 then some .reqApRead08
  else if h = 0x9F#8 then some .reqApReadDrw
  else none

/-- The decoder, total on the bits of a command or of a frame. -/
def decode : Encoded → Option Instr
  | .command c => decodeCommand c
  | .frame h data => decodeFrame h data

/-- The request of a header row, with the word its data phase carries: the columns APnDP, RnW and a of spec/30_encoding.md
R97. `none` for a command row. -/
def Instr.request : Instr → Option (Request × Word)
  | .reqDpWriteAbort d => some (⟨false, false, 0⟩, d)
  | .reqDpWriteCtrlstat d => some (⟨false, false, 1⟩, d)
  | .reqDpWriteSelect d => some (⟨false, false, 2⟩, d)
  | .reqDpWrite0C d => some (⟨false, false, 3⟩, d)
  | .reqDpReadIdcode => some (⟨false, true, 0⟩, 0)
  | .reqDpReadCtrlstat => some (⟨false, true, 1⟩, 0)
  | .reqDpRead08 => some (⟨false, true, 2⟩, 0)
  | .reqDpReadRdbuff => some (⟨false, true, 3⟩, 0)
  | .reqApWriteCsw d => some (⟨true, false, 0⟩, d)
  | .reqApWriteTar d => some (⟨true, false, 1⟩, d)
  | .reqApWrite08 d => some (⟨true, false, 2⟩, d)
  | .reqApWriteDrw d => some (⟨true, false, 3⟩, d)
  | .reqApReadCsw => some (⟨true, true, 0⟩, 0)
  | .reqApReadTar => some (⟨true, true, 1⟩, 0)
  | .reqApRead08 => some (⟨true, true, 2⟩, 0)
  | .reqApReadDrw => some (⟨true, true, 3⟩, 0)
  | .lineReset => none
  | .wireRead _ _ => none
  | .wireWrite _ _ _ => none
  | .selectBank _ _ => none
  | .powerUp => none
  | .memRead _ => none
  | .memWrite _ _ => none
  | .memWriteHalf _ _ => none

/-- The APNDP and A fields of a command word in place (spec/30_encoding.md R91, R108). -/
def registerFields (apndp : Bool) (a : BitVec 2) : Word :=
  (bitWord apndp <<< 4) ||| (a.setWidth 32 <<< 5)

/-- The raw codec command that puts a request on the wire (spec/30_encoding.md R90, R108): WIRE_READ or WIRE_WRITE. -/
def Request.rawCommand (r : Request) (d : Word) : Instr :=
  if r.rnw then .wireRead r.apndp r.a else .wireWrite r.apndp r.a d

/-- The triple of the raw codec command that puts a request on the wire (spec/30_encoding.md R108). -/
def Request.rawTriple (r : Request) (d : Word) : Command :=
  if r.rnw then ⟨0x2#32 ||| registerFields r.apndp r.a, 0, 0⟩ else ⟨0x3#32 ||| registerFields r.apndp r.a, 0, d⟩

/-- The command triple of a command (spec/30_encoding.md R108); an operand the command does not use is written as 0. A
header row is not a command: its triple is that of the raw command that puts it on the wire. -/
def Instr.command : Instr → Command
  | .lineReset => ⟨0x1#32, 0, 0⟩
  | .wireRead apndp a => Request.rawTriple ⟨apndp, true, a⟩ 0
  | .wireWrite apndp a d => Request.rawTriple ⟨apndp, false, a⟩ d
  | .selectBank ap bank => ⟨0x4#32 ||| (bank.setWidth 32 <<< 8) ||| (ap.setWidth 32 <<< 16), 0, 0⟩
  | .powerUp => ⟨0x5#32, 0, 0⟩
  | .memRead addr => ⟨0x6#32, addr, 0⟩
  | .memWrite addr d => ⟨0x7#32, addr, d⟩
  | .memWriteHalf addr h => ⟨0x8#32, addr, h.setWidth 32⟩
  | .reqDpWriteAbort d => Request.rawTriple ⟨false, false, 0⟩ d
  | .reqDpWriteCtrlstat d => Request.rawTriple ⟨false, false, 1⟩ d
  | .reqDpWriteSelect d => Request.rawTriple ⟨false, false, 2⟩ d
  | .reqDpWrite0C d => Request.rawTriple ⟨false, false, 3⟩ d
  | .reqDpReadIdcode => Request.rawTriple ⟨false, true, 0⟩ 0
  | .reqDpReadCtrlstat => Request.rawTriple ⟨false, true, 1⟩ 0
  | .reqDpRead08 => Request.rawTriple ⟨false, true, 2⟩ 0
  | .reqDpReadRdbuff => Request.rawTriple ⟨false, true, 3⟩ 0
  | .reqApWriteCsw d => Request.rawTriple ⟨true, false, 0⟩ d
  | .reqApWriteTar d => Request.rawTriple ⟨true, false, 1⟩ d
  | .reqApWrite08 d => Request.rawTriple ⟨true, false, 2⟩ d
  | .reqApWriteDrw d => Request.rawTriple ⟨true, false, 3⟩ d
  | .reqApReadCsw => Request.rawTriple ⟨true, true, 0⟩ 0
  | .reqApReadTar => Request.rawTriple ⟨true, true, 1⟩ 0
  | .reqApRead08 => Request.rawTriple ⟨true, true, 2⟩ 0
  | .reqApReadDrw => Request.rawTriple ⟨true, true, 3⟩ 0

/-- The encoder: a command row as its triple, a header row as its header byte (spec/30_encoding.md R96) and data word. -/
def encode (i : Instr) : Encoded :=
  match i.request with
  | some (r, d) => .frame r.header d
  | none => .command i.command

/-- The bits of an opcode-table row as the hardware holds them: a row of 8 bits is a request header, any other row a command
word; operand words the table gives no bits are 0. -/
def encodedOfTableWord (nbits w : Nat) : Encoded :=
  if nbits = 8 then .frame (BitVec.ofNat 8 w) 0 else .command ⟨BitVec.ofNat 32 w, 0, 0⟩

/-- The instruction the decoder reads from a row's bits. A row of the table has 8 or 32 bits; no other width is decoded: DESIGN
CHOICE, safe (log 17). -/
def decodeTableWord (nbits w : Nat) : Option Instr :=
  if nbits = 8 || nbits = 32 then decode (encodedOfTableWord nbits w) else none

end Sys2Proof
end

