-- ==== Sys2Proof/Config.lean ====
section
/-!
DEFINITION. What the implementation fixes and the spec leaves open (spec/00_scope.md R9), and the free values.

The open parameters are "arguments the model takes" (R9). The host's form of exec and step has room for an argument in
the state only, so the parameters travel there (State.par) and no step changes them (log 3). Nothing in Lean can evaluate
the opaque constants of this file or prove a value of one: a statement about them holds whatever they are.
-/
namespace Sys2Proof

/-- The open parameters of spec/00_scope.md R9 that a rule depends on. -/
structure Params where
  /-- PHY_CAN_FAIL: whether the pin channel may report a transport failure. -/
  phyCanFail : Bool
  /-- CSW_BASE bits [31:6]; its bits [5:0] are 0 by R9. -/
  cswHigh : BitVec 26
  /-- One less than H, the duration of a half bit cycle, in units of the half-period timer: H is any positive duration. -/
  halfPeriodPred : Nat
  deriving DecidableEq, Repr, Inhabited

/-- The parameters of the platform at hand: OPEN (spec/92_eei_decisions.md D10, D20, D29). DESIGN CHOICE, safe (log 3). -/
opaque Config.params : Params

/-- A free bit: a level the target gives beyond the listed ones, a pin latch after a transport failure, rx_par outside a
frame. DESIGN CHOICE, safe (logs 5, 7, 9). -/
opaque Config.freeBit : Nat → Bool

/-- A free word: tx_shift and rx_shift outside a frame (spec/10_state.md R43). DESIGN CHOICE, safe (log 9). -/
opaque Config.freeWord : Nat → Word

/-- A free byte: hdr_shift outside a frame (spec/10_state.md R43). DESIGN CHOICE, safe (log 9). -/
opaque Config.freeByte : Nat → Byte

/-- A free 3-bit value: ack_shift outside a frame (spec/10_state.md R43). DESIGN CHOICE, safe (log 9). -/
opaque Config.freeAck : Nat → BitVec 3

end Sys2Proof
end

