-- ==== Sys2Proof/Machine/State.lean ====
section
/-!
DEFINITION. The state: everything spec/10_state.md R30 and R48 give the block, then the model's own fields (the open
parameters, what the outside of the block will do, and what has been observed on the pins). All of it is plain data.
The block has no memory (spec/20_memory.md R60), so State holds none.
-/
namespace Sys2Proof.Machine

/-- The pin-port output latches (spec/10_state.md R31). -/
structure Pins where
  /-- `swclk_oe`: SWCLK in output mode. -/
  swclkOe : Bool
  /-- `swclk_o`: level driven on SWCLK. -/
  swclkO : Bool
  /-- `swdio_oe`: SWDIO in output mode. -/
  swdioOe : Bool
  /-- `swdio_o`: level driven on SWDIO. -/
  swdioO : Bool
  deriving DecidableEq, Repr, Inhabited

/-- The bank cache (spec/10_state.md R37): `sel_valid`, `sel_ap`, `sel_bank`. -/
structure Cache where
  valid : Bool
  ap : Byte
  bank : Byte
  deriving DecidableEq, Repr, Inhabited

/-- The response registers (spec/10_state.md R40). -/
structure Response where
  valid : Bool
  status : BitVec 4
  ack : BitVec 3
  data : Word
  deriving DecidableEq, Repr, Inhabited

/-- The phases of a frame and the segments of a line reset (spec/10_state.md R42). -/
inductive Phase where
  | header | trn1 | ack | trn2 | data | parity | idle
  | ones | magic | idleSync
  deriving DecidableEq, Repr, Inhabited

/-- The sequencer position (spec/10_state.md R42): IDLE, or the triple (step, phase, bit). -/
inductive Seq where
  | idle
  | pos (step : Nat) (phase : Phase) (bit : Nat)
  deriving DecidableEq, Repr, Inhabited

/-- The transient datapath registers (spec/10_state.md R43). -/
structure Datapath where
  tx : Word
  rx : Word
  ack : BitVec 3
  par : Bool
  hdr : Byte
  deriving DecidableEq, Repr, Inhabited

/-- The two pins of the channel (spec/10_state.md R31). -/
inductive Pin where
  | swclk | swdio
  deriving DecidableEq, Repr, Inhabited

/-- The mode of a pin: IN or OUT (spec/00_scope.md R11). -/
inductive Mode where
  | input | output
  deriving DecidableEq, Repr, Inhabited

/-- The events of the wire trace (spec/41_wire_codec.md R120). -/
inductive Event where
  | setMode (pin : Pin) (mode : Mode)
  | drive (level : Bool)
  | sample (level : Bool)
  | linkFail
  deriving DecidableEq, Repr, Inhabited

/-- How a frame ended: with ACK OK and all its bits clocked, or by one of the three errors a frame can raise. -/
inductive FrameEnd where
  | completed | ackFault | parityError | linkFailed
  deriving DecidableEq, Repr, Inhabited

/-- A frame that ended: its header, the word it sent (a write) or received (a read), the ACK it received, and how it
ended. A frame that did not come to its ACK or its data holds what the cleared registers hold. -/
structure FrameRecord where
  header : Byte
  data : Word
  ack : BitVec 3
  ending : FrameEnd
  deriving DecidableEq, Repr, Inhabited

/-- What the agents outside the block will do. The model's own field, not state of the block. -/
structure Env where
  /-- The commands the host will offer, in order; the head stands on the command port (spec/10_state.md R33). -/
  offers : List Command
  /-- The levels the target gives at the next sample instants (spec/00_scope.md R7). -/
  levels : List Bool
  /-- The host asserts block reset (spec/70_reset_and_hazards.md R230) after this many further instants, then after that many
  more, and so on. The instants are those of State.instant, State.event and State.waitHalf (log 6). -/
  resets : List Nat
  /-- The pin channel fails (spec/60_exceptions.md R205) at the wire event that follows this many others, and so on. -/
  linkFaults : List Nat
  /-- How many free values have been drawn. -/
  draws : Nat
  deriving DecidableEq, Repr, Inhabited

/-- What has been seen of the block from outside, oldest first; never cleared. The model's own field. -/
structure Obs where
  /-- The wire trace (spec/41_wire_codec.md R120). -/
  trace : List Event
  /-- The pin latches during each half period that has passed (R121, R122). -/
  wave : List Pins
  /-- One record for each frame that ended. -/
  frames : List FrameRecord
  /-- The time the half-period timer has run (spec/70_reset_and_hazards.md R244). -/
  elapsed : Nat
  deriving DecidableEq, Repr, Inhabited

/-- The state of the machine. -/
structure State where
  pins : Pins
  /-- `link_up` (spec/10_state.md R35). -/
  linkUp : Bool
  /-- `dap_ready` (R36). -/
  dapReady : Bool
  cache : Cache
  /-- `busy` (R39). -/
  busy : Bool
  rsp : Response
  seq : Seq
  dp : Datapath
  /-- The half-period timer (R44); 0 is stopped. -/
  timer : Nat
  /-- The latched command `cmd.word`, `cmd.addr`, `cmd.data` (R33, R45). -/
  cmd : Command
  /-- The model's own: the word a command's rule holds in a local variable between its frames (log 2). -/
  result : Word
  /-- The model's own: the open parameters (log 3). -/
  par : Params
  env : Env
  obs : Obs
  deriving DecidableEq, Repr

/-- The machine's faults: none. The block has no trap and no stuck state: every error is a status on the response port, which
is a next state (spec/60_exceptions.md R200 to R211; spec/93_implementation_defined.md, "No command of the block is stuck").
No constructor, so nothing raises one: safe. -/
inductive Fault where
  deriving DecidableEq, Repr

/-- Why the model gives no meaning. -/
inductive Refusal where
  /-- An instruction without a meaning in the model, raised by an arm of exec that rejects it by name: safe. No arm does. -/
  | notModelled (mnemonic : String)
  deriving DecidableEq, Repr

/-- The machine after block reset: the table of spec/10_state.md R48. The registers R48 leaves unspecified (the transient
datapath registers and the operand latches) are 0: DESIGN CHOICE, unsafe (log 1). What the outside will do is empty in it: no
command offered, no level listed, no block reset and no channel failure scheduled. DESIGN CHOICE, the empty schedules unsafe of
runs from reset (logs 4 to 7). -/
def State.reset : State where
  pins := ⟨false, true, false, true⟩
  linkUp := false
  dapReady := false
  cache := ⟨false, 0x00#8, 0x00#8⟩
  busy := false
  rsp := ⟨false, 0#4, 0#3, 0x00000000#32⟩
  seq := .idle
  dp := ⟨0#32, 0#32, 0#3, false, 0#8⟩
  timer := 0
  cmd := ⟨0#32, 0#32, 0#32⟩
  result := 0#32
  par := Config.params
  env := ⟨[], [], [], [], 0⟩
  obs := ⟨[], [], [], 0⟩

end Sys2Proof.Machine
end

