-- ==== Sys2Proof/Machine/Flags.lean ====
section
/-!
DEFINITION. The block has no condition flags; what plays their part is computed here: data parity (spec/00_scope.md R13), the
cache-hit test (spec/20_memory.md R79), the status codes (spec/60_exceptions.md R200), and the two views of the state that
the host reads (`cmd_ready`, `status_word`: spec/10_state.md R33, R41).
-/
namespace Sys2Proof.Machine

/-- `Serialise(v, n)`: the bits of a value, least significant first (spec/00_scope.md R14). -/
def serialise {w : Nat} (v : BitVec w) : List Bool := (List.range w).map v.getLsbD

/-- The XOR of a list of bits. -/
def xorAll (bs : List Bool) : Bool := bs.foldl Bool.xor false

/-- `parity32(v)` (spec/00_scope.md R13): the XOR of the 32 bits. -/
def parity32 (v : Word) : Bool := xorAll (serialise v)

/-- OK (spec/60_exceptions.md R200). -/
def statusOk : BitVec 4 := 0#4
/-- ACK_FAULT. -/
def statusAckFault : BitVec 4 := 1#4
/-- PARITY_ERROR. -/
def statusParityError : BitVec 4 := 2#4
/-- TRANSPORT_ERROR. -/
def statusTransportError : BitVec 4 := 3#4
/-- NOT_INITIALISED. -/
def statusNotInitialised : BitVec 4 := 4#4
/-- NOT_POWERED. -/
def statusNotPowered : BitVec 4 := 5#4
/-- ILLEGAL_COMMAND. -/
def statusIllegalCommand : BitVec 4 := 6#4

/-- The ACK value OK (spec/30_encoding.md R99). -/
def ackOk : BitVec 3 := 0b001#3

/-- The significant part of a bank: "masked to multiples of 0x10" (spec/20_memory.md R79, R87). -/
def bankBits (bank : Byte) : Byte := bank &&& 0xF0#8

/-- The cache hit of spec/20_memory.md R79. -/
def Cache.hit (c : Cache) (ap bank : Byte) : Bool :=
  c.valid && decide (c.ap = ap) && decide (c.bank = bankBits bank)

/-- `cmd_ready` (spec/10_state.md R33). -/
def State.cmdReady (s : State) : Bool := !s.busy

/-- `cmd_valid` (spec/10_state.md R33): the host offers a command. -/
def State.cmdValid (s : State) : Bool := !s.env.offers.isEmpty

/-- `status_word` (spec/10_state.md R41). -/
def State.statusWord (s : State) : Word :=
  s.rsp.status.setWidth 32 ||| (s.rsp.ack.setWidth 32 <<< 4) ||| (bitWord s.rsp.valid <<< 7)
    ||| (bitWord s.busy <<< 8) ||| (bitWord s.linkUp <<< 9) ||| (bitWord s.dapReady <<< 10)
    ||| (bitWord s.cache.valid <<< 11) ||| (s.cache.ap.setWidth 32 <<< 16) ||| (s.cache.bank.setWidth 32 <<< 24)

end Sys2Proof.Machine
end

