-- ==== Sys2Proof/Machine/Operands.lean ====
section
/-!
DEFINITION. Operand values, and the frames of each command in the order its rule lists them (spec/41_wire_codec.md R138,
R139; spec/42_transaction.md R162 to R167).
-/
namespace Sys2Proof.Machine

/-- `d[i] <- b` (spec/41_wire_codec.md R130). -/
def setBit {w : Nat} (v : BitVec w) (i : Nat) (b : Bool) : BitVec w :=
  if b then v ||| (1#w <<< i) else v &&& ~~~(1#w <<< i)

/-- `LINE_RESET_ONES` (spec/00_scope.md R9, spec/30_encoding.md R102). -/
def lineResetOnes : Nat := 64

/-- The 16 bits of the JTAG-to-SWD magic, bytes 0x9E and 0xE7 (spec/30_encoding.md R102). -/
def magicBits : List Bool := serialise 0x9E#8 ++ serialise 0xE7#8

/-- `MEM_AP` (spec/00_scope.md R9, spec/92_eei_decisions.md D18). -/
def memAp : Byte := 0x00#8

/-- `CTRLSTAT_POWERUP` (spec/20_memory.md R88). -/
def ctrlstatPowerup : Word := 0x50000000#32

/-- `ABORT_CLEAR` (spec/20_memory.md R88). -/
def abortClear : Word := 0x0000001E#32

/-- `CSW_BASE`: open, with bits [5:0] = 0 (spec/00_scope.md R9). -/
def cswBase (p : Params) : Word := p.cswHigh.setWidth 32 <<< 6

/-- `CSW_WORD` (spec/20_memory.md R89, spec/30_encoding.md R105). -/
def cswWord (p : Params) : Word := cswBase p ||| 0x00000002#32

/-- `CSW_HALF` (spec/20_memory.md R89, spec/30_encoding.md R105). -/
def cswHalf (p : Params) : Word := cswBase p ||| 0x00000001#32

/-- H, the duration of a half bit cycle: positive (spec/00_scope.md R9). -/
def halfPeriod (p : Params) : Nat := p.halfPeriodPred + 1

/-- `SelectValue(ap, bank)` (spec/20_memory.md R87, spec/30_encoding.md R104). -/
def selectValue (ap bank : Byte) : Word := (ap.setWidth 32 <<< 24) ||| (bankBits bank).setWidth 32

/-- `HalfLane(addr, h)` (spec/20_memory.md R69, spec/30_encoding.md R106). -/
def halfLane (addr : Word) (h : BitVec 16) : Word :=
  h.setWidth 32 <<< (if addr.getLsbD 1 then 16 else 0)

/-- The request of a DP SELECT write (spec/20_memory.md R62). -/
def selectRequest : Request := ⟨false, false, 2⟩

/-- One entry of a command's list of frames. `keep` says whether the word read is the command's result. A `select` is the
bank selection of spec/42_transaction.md R161: a DP SELECT write on a cache miss, no frame on a hit. -/
inductive FrameOp where
  | read (apndp : Bool) (a : BitVec 2) (keep : Bool)
  | write (apndp : Bool) (a : BitVec 2) (data : Word)
  | select (ap bank : Byte)
  deriving DecidableEq, Repr, Inhabited

/-- The request of a frame: that of CodecRead or CodecWrite (spec/41_wire_codec.md R130, R134), and CodecWrite(0, 2, v) for a
bank selection (spec/42_transaction.md R161). -/
def FrameOp.request : FrameOp → Request
  | .read apndp a _ => ⟨apndp, true, a⟩
  | .write apndp a _ => ⟨apndp, false, a⟩
  | .select _ _ => selectRequest

/-- The word a frame sends; a read sends none, its `tx_shift` is 0. -/
def FrameOp.data : FrameOp → Word
  | .read _ _ _ => 0#32
  | .write _ _ d => d
  | .select ap bank => selectValue ap bank

/-- WIRE_READ: CodecRead(apndp, a) (spec/41_wire_codec.md R138). -/
def framesWireRead (apndp : Bool) (a : BitVec 2) : List FrameOp := [.read apndp a true]

/-- WIRE_WRITE: CodecWrite(apndp, a, d) (spec/41_wire_codec.md R139). -/
def framesWireWrite (apndp : Bool) (a : BitVec 2) (d : Word) : List FrameOp := [.write apndp a d]

/-- SELECT_BANK: SelectBank(ap, bank) (spec/42_transaction.md R162). -/
def framesSelectBank (ap bank : Byte) : List FrameOp := [.select ap bank]

/-- POWER_UP: IDCODE read, CTRL/STAT, ABORT, bank select, CSW (spec/42_transaction.md R163). -/
def framesPowerUp (p : Params) : List FrameOp :=
  [.read false 0 true, .write false 1 ctrlstatPowerup, .write false 0 abortClear, .select memAp 0x00#8,
    .write true 0 (cswWord p)]

/-- MEM_READ: bank select, TAR, DRW read discarded, RDBUFF read (spec/42_transaction.md R164, R165). -/
def framesMemRead (addr : Word) : List FrameOp :=
  [.select memAp 0x00#8, .write true 1 addr, .read true 3 false, .read false 3 true]

/-- MEM_WRITE: bank select, TAR, DRW (spec/42_transaction.md R164, R166). -/
def framesMemWrite (addr d : Word) : List FrameOp :=
  [.select memAp 0x00#8, .write true 1 addr, .write true 3 d]

/-- MEM_WRITE_HALF: bank select, CSW half, TAR, DRW lane, CSW word (spec/42_transaction.md R164, R167). -/
def framesMemWriteHalf (p : Params) (addr : Word) (h : BitVec 16) : List FrameOp :=
  [.select memAp 0x00#8, .write true 0 (cswHalf p), .write true 1 addr, .write true 3 (halfLane addr h),
    .write true 0 (cswWord p)]

/-- The frames of a command, none for LINE_RESET, whose sequence is no frame (spec/41_wire_codec.md R126). A request header
is itself one frame of such a list, and has none of its own. -/
def frames (p : Params) : Instr → List FrameOp
  | .lineReset => []
  | .wireRead apndp a => framesWireRead apndp a
  | .wireWrite apndp a d => framesWireWrite apndp a d
  | .selectBank ap bank => framesSelectBank ap bank
  | .powerUp => framesPowerUp p
  | .memRead addr => framesMemRead addr
  | .memWrite addr d => framesMemWrite addr d
  | .memWriteHalf addr h => framesMemWriteHalf p addr h
  | .reqDpWriteAbort _ => []
  | .reqDpWriteCtrlstat _ => []
  | .reqDpWriteSelect _ => []
  | .reqDpWrite0C _ => []
  | .reqDpReadIdcode => []
  | .reqDpReadCtrlstat => []
  | .reqDpRead08 => []
  | .reqDpReadRdbuff => []
  | .reqApWriteCsw _ => []
  | .reqApWriteTar _ => []
  | .reqApWrite08 _ => []
  | .reqApWriteDrw _ => []
  | .reqApReadCsw => []
  | .reqApReadTar => []
  | .reqApRead08 => []
  | .reqApReadDrw => []

/-- The command in progress, read from the operand latches (spec/10_state.md R33, R45). -/
def State.current (s : State) : Option Instr := decodeCommand s.cmd

/-- The frames of the command in progress. -/
def State.frames (s : State) : List FrameOp :=
  match s.current with
  | some i => Sys2Proof.Machine.frames s.par i
  | none => []

/-- The frame the sequencer stands in, if any (spec/10_state.md R42: `step` indexes the frames of the current command). -/
def State.frameOp (s : State) : Option FrameOp :=
  match s.seq with
  | .idle => none
  | .pos k _ _ => s.frames[k]?

/-- The entry is a bank selection. -/
def FrameOp.selects : FrameOp → Bool
  | .select _ _ => true
  | .read _ _ _ => false
  | .write _ _ _ => false

/-- The frame in progress is a cache-miss SELECT write (spec/20_memory.md R81): a bank selection reaches the wire on a miss
only. -/
def State.selecting (s : State) : Bool :=
  match s.frameOp with
  | some op => op.selects
  | none => false

end Sys2Proof.Machine
end

