-- ==== Sys2Proof/Machine/Ops.lean ====
section
/-!
DEFINITION. The named operations of the block: free values, ending a command (the response, which plays the part of taking an
exception: spec/60_exceptions.md R201, R202), block reset, wire events, bit cycles, and the sequencer, which advances one bit
cycle at a time (spec/10_state.md R42).
-/
namespace Sys2Proof.Machine

/-! ## Ending a command -/

/-- The end of a command: the response is written, the block is idle and the sequencer at IDLE (spec/10_state.md R34, R42;
spec/60_exceptions.md R201, R202). -/
def State.respond (s : State) (status : BitVec 4) (ack : BitVec 3) (data : Word) : State :=
  { s with rsp := ⟨true, status, ack, data⟩, busy := false, seq := .idle }

/-- `raise E` for an E raised before any wire activity (spec/60_exceptions.md R202: `rsp_ack` and `rsp_data` are 0, no other
state is written). -/
def State.refuse (s : State) (status : BitVec 4) : State := s.respond status 0#3 0#32

/-- The transient registers at the end of a frame: unspecified (spec/10_state.md R43), so each is a free value. DESIGN CHOICE,
safe (log 9). -/
def State.scrub (s : State) : State :=
  { s with
    dp := ⟨Config.freeWord s.env.draws, Config.freeWord (s.env.draws + 1), Config.freeAck s.env.draws,
      Config.freeBit s.env.draws, Config.freeByte s.env.draws⟩
    env := { s.env with draws := s.env.draws + 2 } }

/-- The frame in progress is a read: RnW, bit 2 of its header (spec/30_encoding.md R95). -/
def Datapath.reading (d : Datapath) : Bool := d.hdr.getLsbD 2

/-- The record of the frame in progress, ending as given. -/
def Datapath.record (d : Datapath) (e : FrameEnd) : FrameRecord :=
  ⟨d.hdr, if d.reading then d.rx else d.tx, d.ack, e⟩

/-- Enters the frame in progress in the list of frames that ended. -/
def State.logFrame (s : State) (e : FrameEnd) : State :=
  { s with obs := { s.obs with frames := s.obs.frames ++ [s.dp.record e] } }

/-- `sel_valid <- 0` (spec/20_memory.md R81 to R83). -/
def State.forgetBank (s : State) : State := { s with cache := { s.cache with valid := false } }

/-- The cache after an error in the frame in progress: invalid if that frame is a cache-miss SELECT write, else unchanged
(spec/20_memory.md R81, R84). -/
def State.forgetBankIfSelecting (s : State) : State := if s.selecting then s.forgetBank else s

/-- `raise ACK_FAULT(ack)` (spec/60_exceptions.md R202, R203). -/
def State.raiseAckFault (s : State) : State :=
  ((s.forgetBankIfSelecting.logFrame .ackFault).respond statusAckFault s.dp.ack 0#32).scrub

/-- `raise PARITY_ERROR(d)` (spec/60_exceptions.md R202, R204). -/
def State.raiseParityError (s : State) : State :=
  ((s.logFrame .parityError).respond statusParityError ackOk s.dp.rx).scrub

/-- The frame phases of spec/10_state.md R42, as against the segments of a line reset. -/
def Phase.inFrame : Phase → Bool
  | .header => true
  | .trn1 => true
  | .ack => true
  | .trn2 => true
  | .data => true
  | .parity => true
  | .idle => true
  | .ones => false
  | .magic => false
  | .idleSync => false

/-- The sequencer stands in a frame. -/
def Seq.inFrame : Seq → Bool
  | .idle => false
  | .pos _ ph _ => ph.inFrame

/-- The pin latches after a transport failure: any value (spec/60_exceptions.md R205). Four free bits. DESIGN CHOICE, safe
(log 7). -/
def State.freePins (s : State) : State :=
  { s with
    pins := ⟨Config.freeBit s.env.draws, Config.freeBit (s.env.draws + 1), Config.freeBit (s.env.draws + 2),
      Config.freeBit (s.env.draws + 3)⟩
    env := { s.env with draws := s.env.draws + 4 } }

/-- Appends an event to the wire trace. -/
def State.emit (s : State) (e : Event) : State := { s with obs := { s.obs with trace := s.obs.trace ++ [e] } }

/-- `raise TRANSPORT_ERROR` at a LinkFail event (spec/60_exceptions.md R202, R205): `link_up` and `dap_ready` are cleared, and
the cache is invalidated if the frame was a cache-miss SELECT write; the half-period timer does not run on. -/
def State.raiseTransportError (s : State) : State :=
  let s1 := if s.seq.inFrame then s.logFrame .linkFailed else s
  ({ (s1.forgetBankIfSelecting.emit .linkFail).respond statusTransportError 0#3 0#32 with
      linkUp := false, dapReady := false, timer := 0 }).freePins.scrub

/-- Block reset (spec/70_reset_and_hazards.md R230, R231): every piece of block state takes its reset value; a command in
progress is abandoned without a response, wherever it stands: at each instant of State.instant, State.event and State.waitHalf
(log 6). The parameters, what the outside will do next and what has been seen are not state
of the block. -/
def State.blockReset (s : State) : State :=
  { State.reset with par := s.par, env := { s.env with resets := s.env.resets.tail }, obs := s.obs }

/-! ## Wire events -/

/-- A frame's progress past a wire event: it goes on in a state, or it has ended there, with the next frame of the command
loaded, or with the command (by its response, by a transport failure or by block reset). -/
inductive Flow where
  | on (s : State)
  | off (s : State)
  deriving DecidableEq, Repr

/-- The state, whether or not the frame goes on. -/
def Flow.state : Flow → State
  | .on s => s
  | .off s => s

/-- Goes on with `k` if the frame goes on. -/
def Flow.andThen : Flow → (State → Flow) → Flow
  | .on s, k => k s
  | .off s, _ => .off s

/-- The next input of a schedule is due now. -/
def due : List Nat → Bool
  | 0 :: _ => true
  | _ => false

/-- One wire event passes for the channel failures. -/
def countdown : List Nat → List Nat
  | [] => []
  | 0 :: rest => rest
  | (n + 1) :: rest => n :: rest

/-- The instant of the next `n` at which the next input of a schedule lands, counted from 0. -/
def lands (n : Nat) : List Nat → Option Nat
  | [] => none
  | r :: _ => if r < n then some r else none

/-- `n` instants at which nothing landed pass. -/
def elapse (n : Nat) : List Nat → List Nat
  | [] => []
  | r :: rest => (r - n) :: rest

/-- `n` instants pass for the block resets. -/
def State.pass (s : State) (n : Nat) : State := { s with env := { s.env with resets := elapse n s.env.resets } }

/-- The channel fails at the next wire event: only when PHY_CAN_FAIL (spec/60_exceptions.md R205). -/
def State.linkFailsNow (s : State) : Bool := due s.env.linkFaults && s.par.phyCanFail

/-- The instant before a wire event, and the wire event, pass for the schedules. -/
def State.passEvent (s : State) : State :=
  { s with env := { s.env with resets := elapse 1 s.env.resets, linkFaults := countdown s.env.linkFaults } }

/-- A wire event is about to happen: block reset abandons the command here (spec/70_reset_and_hazards.md R230), or the channel
fails in its place (spec/60_exceptions.md R205), or it happens. -/
def State.event (s : State) (k : State → Flow) : Flow :=
  if due s.env.resets then .off s.blockReset
  else if s.linkFailsNow then .off s.passEvent.raiseTransportError
  else k s.passEvent

/-! ## Bit cycles -/

/-- Whether a pin is in output mode. -/
def Pins.isOut (p : Pins) : Pin → Bool
  | .swclk => p.swclkOe
  | .swdio => p.swdioOe

/-- `p_oe <- m` (spec/10_state.md R31). -/
def Pins.setMode (p : Pins) (pin : Pin) (out : Bool) : Pins :=
  match pin with
  | .swclk => { p with swclkOe := out }
  | .swdio => { p with swdioOe := out }

/-- The mode of a pin in output (`true`) or input mode. -/
def modeOf (out : Bool) : Mode := if out then .output else .input

/-- `SetMode(pin, m)` (spec/10_state.md R31): an event only when it changes the mode (spec/41_wire_codec.md R120). It takes no
time (R123). -/
def State.setMode (s : State) (pin : Pin) (out : Bool) : Flow :=
  if s.pins.isOut pin = out then .on s
  else s.event fun s => .on ({ s with pins := s.pins.setMode pin out }.emit (.setMode pin (modeOf out)))

/-- The half-period timer is loaded with H (spec/10_state.md R44). -/
def State.startTimer (s : State) : State := { s with timer := halfPeriod s.par }

/-- The half-period timer counts down by `n`; the pins keep their levels for that time. -/
def State.runTimer (s : State) (n : Nat) : State :=
  { s with timer := s.timer - n, obs := { s.obs with wave := s.obs.wave ++ [s.pins], elapsed := s.obs.elapsed + n } }

/-- A half period passes, and the timer stops. -/
def State.halfPassed (s : State) : State := (s.startTimer.runTimer (halfPeriod s.par)).pass (halfPeriod s.par)

/-- "wait H" (spec/41_wire_codec.md R121, R122). Block reset can land at each count of the timer (spec/70_reset_and_hazards.md
R230): the bit cycle is then cut short, and is no event. DESIGN CHOICE, safe (logs 6, 15). -/
def State.waitHalf (s : State) : Flow :=
  match lands (halfPeriod s.par) s.env.resets with
  | some n => .off (s.startTimer.runTimer n).blockReset
  | none => .on s.halfPassed

/-- `swclk_o <- b`. -/
def State.clockTo (s : State) (b : Bool) : State := { s with pins := { s.pins with swclkO := b } }

/-- The first instant of `DriveBit(b)`: SWCLK falls and SWDIO takes its level. -/
def State.driveLow (s : State) (b : Bool) : State := { s with pins := { s.pins with swclkO := false, swdioO := b } }

/-- `DriveBit(b)` (spec/41_wire_codec.md R121): SWCLK falls and SWDIO takes its level, wait H, SWCLK rises, wait H. -/
def State.driveCycle (s : State) (b : Bool) : Flow :=
  (s.driveLow b).waitHalf.andThen fun s => (s.clockTo true).waitHalf.andThen fun s => .on (s.emit (.drive b))

/-- `DriveBit(b)` as a wire event. -/
def State.driveBit (s : State) (b : Bool) : Flow := s.event fun s => s.driveCycle b

/-- The level on SWDIO at a sample instant: the block's own while it drives the line (spec/10_state.md R32; DEDUCED, safe, log
19), else the next level of the target (spec/00_scope.md R7), which is a free value once the listed ones are used up (DESIGN
CHOICE, safe, log 5). -/
def State.level (s : State) : Bool :=
  if s.pins.swdioOe then s.pins.swdioO
  else match s.env.levels with
    | b :: _ => b
    | [] => Config.freeBit s.env.draws

/-- A level of the target has been used. -/
def State.useLevel (s : State) : State :=
  if s.pins.swdioOe then s
  else match s.env.levels with
    | _ :: rest => { s with env := { s.env with levels := rest } }
    | [] => { s with env := { s.env with draws := s.env.draws + 1 } }

/-- The level is read and SWCLK rises. -/
def State.takeLevel (s : State) : State := s.useLevel.clockTo true

/-- `SampleBit()` (spec/41_wire_codec.md R122): SWCLK falls, wait H, the level is read, SWCLK rises, wait H. `k` takes the level
read. -/
def State.sampleCycle (s : State) (k : Bool → State → Flow) : Flow :=
  (s.clockTo false).waitHalf.andThen fun s =>
    s.takeLevel.waitHalf.andThen fun u => k s.level (u.emit (.sample s.level))

/-- `SampleBit()` as a wire event. -/
def State.sampleBit (s : State) (k : Bool → State → Flow) : Flow := s.event fun s => s.sampleCycle k

/-! ## The sequencer -/

/-- Loads a frame at step `k` and stands before its first header bit. The transient registers are created here (spec/10_state.md
R43): the header and the word to send, and cleared registers for what will be received. DESIGN CHOICE, unsafe
(log 12). -/
def State.loadFrame (s : State) (k : Nat) (r : Request) (d : Word) : State :=
  { s with seq := .pos k .header 0, dp := ⟨d, 0#32, 0#3, false, r.header⟩ }

/-- The frame with request `r` starts at step `k`. A DP SELECT write that is no bank selection, a raw one, sets `sel_valid <- 0`
when its frame starts, whatever its ACK (spec/20_memory.md R82, spec/41_wire_codec.md R139). -/
def State.startFrame (s : State) (k : Nat) (r : Request) (d : Word) : State :=
  let s1 := s.loadFrame k r d
  if r = selectRequest ∧ s1.selecting = false then s1.forgetBank else s1

/-- The end of a command that completes: POWER_UP sets `dap_ready` (spec/42_transaction.md R163), and the response is
`respond(OK, ack, data)` (spec/60_exceptions.md R201). -/
def State.complete (s : State) (ack : BitVec 3) : State :=
  let s1 := match s.current with
    | some .powerUp => { s with dapReady := true }
    | _ => s
  s1.respond statusOk ack s.result

/-- The entry emits no frame: a bank selection that hits the cache (spec/20_memory.md R79). So SELECT_BANK 0x00, 0x0X after a
successful POWER_UP hits, by the pseudocode of spec/42_transaction.md R161 to R163 and against a corner case in R162's text: DESIGN
CHOICE, unsafe (log 21). -/
def FrameOp.hits (c : Cache) : FrameOp → Bool
  | .select ap bank => c.hit ap bank
  | .read _ _ _ => false
  | .write _ _ _ => false

/-- Goes to the first of the remaining entries of the command that emits a frame, `k` being the step of the first remaining
entry (an entry that emits no frame keeps its index: DESIGN CHOICE, safe, log 20); with no entry left the command completes
(spec/42_transaction.md R160, R161). `ack` is the `rsp_ack` of completing
here. -/
def State.enter : List FrameOp → Nat → BitVec 3 → State → State
  | [], _, ack, s => s.complete ack
  | op :: rest, k, ack, s =>
    if op.hits s.cache then State.enter rest (k + 1) ack s else s.startFrame k op.request op.data

/-- What an entry's frame leaves when it ended with ACK OK: the word read, if it is the command's result; the cache updated by
a SELECT write on a miss (spec/20_memory.md R80). -/
def State.opEffect (s : State) : FrameOp → State
  | .read _ _ keep => if keep then { s with result := s.dp.rx } else s
  | .write _ _ _ => s
  | .select ap bank => { s with cache := ⟨true, ap, bankBits bank⟩ }

/-- What the frame in progress leaves when it ended with ACK OK. -/
def State.frameEffect (s : State) : State :=
  match s.frameOp with
  | some op => s.opEffect op
  | none => s

/-- The end of a frame that raised nothing: its effect, and the next frame of the command or the command's end. -/
def State.endFrame (s : State) (k : Nat) : State :=
  State.enter (s.frames.drop (k + 1)) (k + 1) ackOk (s.frameEffect.logFrame .completed).scrub

/-- The position after bit `n` of a phase of `len` bits. -/
def nextPos (k : Nat) (ph : Phase) (n len : Nat) (ph' : Phase) : Seq :=
  if n + 1 < len then .pos k ph (n + 1) else .pos k ph' 0

/-- Moves the sequencer. -/
def State.goto (s : State) (q : Seq) : State := { s with seq := q }

/-- Writes the transient registers. -/
def State.withDp (s : State) (d : Datapath) : State := { s with dp := d }

/-- A SetMode that belongs to the first bit of a phase. -/
def State.setModeFirst (s : State) (n : Nat) (out : Bool) : Flow :=
  if n = 0 then s.setMode .swdio out else .on s

/-- HEADER (spec/41_wire_codec.md R128): SWDIO to output before the first bit, then header bit `n`. -/
def State.tickHeader (s : State) (k n : Nat) : Flow :=
  (s.setModeFirst n true).andThen fun s =>
    (s.driveBit (s.dp.hdr.getLsbD n)).andThen fun s => .on (s.goto (nextPos k .header n 8 .trn1))

/-- TRN1 (R129): SWDIO to input, one turnaround bit, its sample discarded. -/
def State.tickTrn1 (s : State) (k : Nat) : Flow :=
  (s.setMode .swdio false).andThen fun s => s.sampleBit fun _ s => .on (s.goto (.pos k .ack 0))

/-- The ACK test of R129, after the third ACK bit; a write goes to its second turnaround, a read to its data. -/
def State.ackTest (s : State) (k : Nat) : Flow :=
  if s.dp.ack = ackOk then .on (s.goto (.pos k (if s.dp.reading then .data else .trn2) 0))
  else .off s.raiseAckFault

/-- ACK (R129): ACK bit `n`. -/
def State.tickAck (s : State) (k n : Nat) : Flow :=
  s.sampleBit fun b s =>
    let s1 := s.withDp { s.dp with ack := setBit s.dp.ack n b }
    if n + 1 < 3 then .on (s1.goto (.pos k .ack (n + 1))) else s1.ackTest k

/-- TRN2 (R134): the second turnaround bit of a write. -/
def State.tickTrn2 (s : State) (k : Nat) : Flow :=
  s.sampleBit fun _ s => .on (s.goto (.pos k .data 0))

/-- DATA (R130, R134): data bit `n`, sampled by a read; driven by a write, after SWDIO went to output. -/
def State.tickData (s : State) (k n : Nat) : Flow :=
  if s.dp.reading then
    s.sampleBit fun b s =>
      .on ((s.withDp { s.dp with rx := setBit s.dp.rx n b }).goto (nextPos k .data n 32 .parity))
  else
    (s.setModeFirst n true).andThen fun s =>
      (s.driveBit (s.dp.tx.getLsbD n)).andThen fun s => .on (s.goto (nextPos k .data n 32 .parity))

/-- PARITY (R130, R134): the parity bit, sampled by a read, driven by a write. -/
def State.tickParity (s : State) (k : Nat) : Flow :=
  if s.dp.reading then
    s.sampleBit fun b s => .on ((s.withDp { s.dp with par := b }).goto (.pos k .idle 0))
  else
    (s.driveBit (parity32 s.dp.tx)).andThen fun s => .on (s.goto (.pos k .idle 0))

/-- The parity test of a read, after both idle bits (R130, R131). -/
def State.parityTest (s : State) (k : Nat) : Flow :=
  if s.dp.par = parity32 s.dp.rx then .off (s.endFrame k) else .off s.raiseParityError

/-- IDLE (R130, R134): a read's two idle bits are sampled and discarded, a write's one idle bit is driven 0. -/
def State.tickIdle (s : State) (k n : Nat) : Flow :=
  if s.dp.reading then
    s.sampleBit fun _ s => if n + 1 < 2 then .on (s.goto (.pos k .idle (n + 1))) else s.parityTest k
  else
    (s.driveBit false).andThen fun s => .off (s.endFrame k)

/-- ONES (R126): both pins to output, then bit `n` of the line reset. -/
def State.tickOnes (s : State) (k n : Nat) : Flow :=
  ((if n = 0 then s.setMode .swclk true else .on s).andThen fun s => s.setModeFirst n true).andThen fun s =>
    (s.driveBit true).andThen fun s => .on (s.goto (nextPos k .ones n lineResetOnes .magic))

/-- MAGIC (R126): bit `n` of the JTAG-to-SWD magic. -/
def State.tickMagic (s : State) (k n : Nat) : Flow :=
  (s.driveBit (magicBits.getD n false)).andThen fun s => .on (s.goto (nextPos k .magic n 16 .idleSync))

/-- The end of LINE_RESET (R126, R127): `link_up <- 1`, `respond(OK, 0b000, 0)`. -/
def State.endLineReset (s : State) : State := { s with linkUp := true }.respond statusOk 0#3 0#32

/-- IDLESYNC (R126): a zero bit. -/
def State.tickIdleSync (s : State) (k n : Nat) : Flow :=
  (s.driveBit false).andThen fun s =>
    if n + 1 < 16 then .on (s.goto (.pos k .idleSync (n + 1))) else .off s.endLineReset

/-- One bit cycle of the command in progress, with the mode changes before it (spec/10_state.md R42). -/
def State.tickFlow (s : State) : Flow :=
  match s.seq with
  | .idle => .off s
  | .pos k .header n => s.tickHeader k n
  | .pos k .trn1 _ => s.tickTrn1 k
  | .pos k .ack n => s.tickAck k n
  | .pos k .trn2 _ => s.tickTrn2 k
  | .pos k .data n => s.tickData k n
  | .pos k .parity _ => s.tickParity k
  | .pos k .idle n => s.tickIdle k n
  | .pos k .ones n => s.tickOnes k n
  | .pos k .magic n => s.tickMagic k n
  | .pos k .idleSync n => s.tickIdleSync k n

/-- Bit cycles up to the end of the frame (or of the line reset) in progress: at most `fuel`. -/
def State.runFrame : Nat → State → State
  | 0, s => s
  | fuel + 1, s =>
    match s.tickFlow with
    | .on t => State.runFrame fuel t
    | .off t => t

/-- The longest sequence between two frame ends: the 96 bit cycles of a line reset (spec/70_reset_and_hazards.md R245). -/
def frameFuel : Nat := 96

/-- Frames up to the end of the command: at most `n`. -/
def State.runFrames : Nat → State → State
  | 0, s => s
  | n + 1, s =>
    match s.seq with
    | .idle => s
    | .pos _ _ _ => State.runFrames n (State.runFrame frameFuel s)

/-- The most frames a command has (spec/70_reset_and_hazards.md R246). -/
def maxFrames : Nat := 5

/-- The command in progress, run to its end. -/
def State.runCommand (s : State) : State := State.runFrames maxFrames s

/-! ## Starting a command -/

/-- Acceptance of the command at the head of the host's offers (spec/10_state.md R33): its operands are latched, `busy <- 1`,
`rsp_valid <- 0`; the other response registers keep their values (DEDUCED, safe, log 18). -/
def State.accept (s : State) (c : Command) (rest : List Command) : State :=
  { s with cmd := c, busy := true, rsp := { s.rsp with valid := false }, env := { s.env with offers := rest } }

/-- An accepted command starts: the latches hold it (if they hold no encoding of it, as when its meaning is asked for outside a
step, they take the one spec/30_encoding.md R108 gives: DESIGN CHOICE, safe, log 13), the block is busy with no response. -/
def State.begin (s : State) (i : Instr) : State :=
  { s with
    cmd := if s.current = some i then s.cmd else i.command
    busy := true
    rsp := { s.rsp with valid := false }
    result := 0#32 }

/-- The common form of a command's meaning: on an idle block the command starts and runs to its end; while another command is
in progress it is not accepted and waits (spec/60_exceptions.md R212; DESIGN CHOICE, safe, log 14). -/
def State.command (s : State) (i : Instr) (body : State → State) : State :=
  match s.seq with
  | .idle => body (s.begin i)
  | .pos _ _ _ => s

/-- `if st.link_up = 0: raise NOT_INITIALISED` (spec/60_exceptions.md R206). -/
def State.requireLink (s : State) (body : State → State) : State :=
  if s.linkUp then body s else s.refuse statusNotInitialised

/-- `if st.dap_ready = 0: raise NOT_POWERED` (spec/60_exceptions.md R207). -/
def State.requirePower (s : State) (body : State → State) : State :=
  if s.dapReady then body s else s.refuse statusNotPowered

/-- The frames of a command from its first, to its end; a command that emits no frame responds with `rsp_ack` 0b000
(spec/60_exceptions.md R201). -/
def State.runOps (s : State) (ops : List FrameOp) : State := (State.enter ops 0 0#3 s).runCommand

/-- `raise ILLEGAL_COMMAND` on the accepted word (spec/60_exceptions.md R208). -/
def State.illegalCommand (s : State) : State := s.refuse statusIllegalCommand

end Sys2Proof.Machine
end

