-- ==== Sys2Proof/Machine/Codec.lean ====
section
/-!
DEFINITION. The wire-codec commands: LINE_RESET, WIRE_READ, WIRE_WRITE (spec/41_wire_codec.md R126, R138, R139).
-/
namespace Sys2Proof.Machine

/-- The outcome of a step. -/
abbrev Result := Host.Outcome State Fault Refusal

/-- LINE_RESET starts: `dap_ready <- 0`, and the sequencer stands before the first of the 64 ones (spec/41_wire_codec.md R126,
R127). The bank cache is not written (spec/20_memory.md R84). -/
def State.startLineReset (s : State) : State := { s with dapReady := false, seq := .pos 0 .ones 0 }

/-- LINE_RESET (spec/41_wire_codec.md R126): the one command allowed while `link_up` is 0. -/
def execLineReset (s : State) : Result :=
  .next (s.command .lineReset fun s => s.startLineReset.runCommand)

/-- WIRE_READ after acceptance (spec/41_wire_codec.md R138). -/
def State.wireRead (s : State) (apndp : Bool) (a : BitVec 2) : State :=
  s.requireLink fun s => s.runOps (framesWireRead apndp a)

/-- WIRE_READ (spec/41_wire_codec.md R138). -/
def execWireRead (apndp : Bool) (a : BitVec 2) (s : State) : Result :=
  .next (s.command (.wireRead apndp a) fun s => s.wireRead apndp a)

/-- WIRE_WRITE after acceptance (spec/41_wire_codec.md R139); a raw DP SELECT write invalidates the bank cache as its frame starts
(State.startFrame). -/
def State.wireWrite (s : State) (apndp : Bool) (a : BitVec 2) (d : Word) : State :=
  s.requireLink fun s => s.runOps (framesWireWrite apndp a d)

/-- WIRE_WRITE (spec/41_wire_codec.md R139). -/
def execWireWrite (apndp : Bool) (a : BitVec 2) (d : Word) (s : State) : Result :=
  .next (s.command (.wireWrite apndp a d) fun s => s.wireWrite apndp a d)

end Sys2Proof.Machine
end

