-- ==== Sys2Proof/Machine/Requests.lean ====
section
/-!
DEFINITION. The 16 request headers (spec/30_encoding.md R97): each is one frame, CodecRead or CodecWrite (spec/41_wire_codec.md
R130, R134), with the ending the command in progress gives it (spec/00_scope.md R15: a frame that raises ends the command;
otherwise the command goes on).
-/
namespace Sys2Proof.Machine

/-- A frame with the given request. Where the sequencer stands before a frame, it is that frame of the command in progress. On
an idle block a request reaches the wire only as the raw codec command that carries it (spec/30_encoding.md R90), WIRE_READ or
WIRE_WRITE. In the middle of another frame it is not started: a frame is indivisible (spec/20_memory.md R73). DESIGN CHOICE,
safe (log 10). -/
def State.request (s : State) (r : Request) (d : Word) : State :=
  match s.seq with
  | .idle =>
    s.command (r.rawCommand d) fun s => if r.rnw then s.wireRead r.apndp r.a else s.wireWrite r.apndp r.a d
  | .pos k ph n =>
    if ph = .header ∧ n = 0 then
      State.runFrame frameFuel (s.startFrame k r d)
    else s

/-- DP ABORT write, header 0x81. -/
def execReqDpWriteAbort (d : Word) (s : State) : Result := .next (s.request ⟨false, false, 0⟩ d)

/-- DP CTRL/STAT write, header 0xA9. -/
def execReqDpWriteCtrlstat (d : Word) (s : State) : Result := .next (s.request ⟨false, false, 1⟩ d)

/-- DP SELECT write, header 0xB1. -/
def execReqDpWriteSelect (d : Word) (s : State) : Result := .next (s.request ⟨false, false, 2⟩ d)

/-- DP 0x0C write (register not named), header 0x99. -/
def execReqDpWrite0C (d : Word) (s : State) : Result := .next (s.request ⟨false, false, 3⟩ d)

/-- DP IDCODE read, header 0xA5. -/
def execReqDpReadIdcode (s : State) : Result := .next (s.request ⟨false, true, 0⟩ 0)

/-- DP CTRL/STAT read, header 0x8D. -/
def execReqDpReadCtrlstat (s : State) : Result := .next (s.request ⟨false, true, 1⟩ 0)

/-- DP 0x08 read (register not named), header 0x95. -/
def execReqDpRead08 (s : State) : Result := .next (s.request ⟨false, true, 2⟩ 0)

/-- DP RDBUFF read, header 0xBD. -/
def execReqDpReadRdbuff (s : State) : Result := .next (s.request ⟨false, true, 3⟩ 0)

/-- AP CSW write, header 0xA3. -/
def execReqApWriteCsw (d : Word) (s : State) : Result := .next (s.request ⟨true, false, 0⟩ d)

/-- AP TAR write, header 0x8B. -/
def execReqApWriteTar (d : Word) (s : State) : Result := .next (s.request ⟨true, false, 1⟩ d)

/-- AP 0x08 write (register not named), header 0x93. -/
def execReqApWrite08 (d : Word) (s : State) : Result := .next (s.request ⟨true, false, 2⟩ d)

/-- AP DRW write, header 0xBB. -/
def execReqApWriteDrw (d : Word) (s : State) : Result := .next (s.request ⟨true, false, 3⟩ d)

/-- AP CSW read, header 0x87. -/
def execReqApReadCsw (s : State) : Result := .next (s.request ⟨true, true, 0⟩ 0)

/-- AP TAR read, header 0xAF. -/
def execReqApReadTar (s : State) : Result := .next (s.request ⟨true, true, 1⟩ 0)

/-- AP 0x08 read (register not named), header 0xB7. -/
def execReqApRead08 (s : State) : Result := .next (s.request ⟨true, true, 2⟩ 0)

/-- AP DRW read, header 0x9F. -/
def execReqApReadDrw (s : State) : Result := .next (s.request ⟨true, true, 3⟩ 0)

end Sys2Proof.Machine
end

