-- ==== Sys2Proof/Machine/Transaction.lean ====
section
/-!
DEFINITION. The commands of the transaction controller: SELECT_BANK, POWER_UP, MEM_READ, MEM_WRITE, MEM_WRITE_HALF
(spec/42_transaction.md R162 to R167).
-/
namespace Sys2Proof.Machine

/-- SELECT_BANK (spec/42_transaction.md R162). -/
def execSelectBank (ap bank : Byte) (s : State) : Result :=
  .next (s.command (.selectBank ap bank) fun s => s.requireLink fun s => s.runOps (framesSelectBank ap bank))

/-- POWER_UP (spec/42_transaction.md R163): `dap_ready` and `sel_valid` are cleared before its first frame; `dap_ready` is set
when its last frame has ended (State.complete). -/
def execPowerUp (s : State) : Result :=
  .next (s.command .powerUp fun s => s.requireLink fun s =>
    ({ s with dapReady := false }.forgetBank).runOps (framesPowerUp s.par))

/-- MEM_READ (spec/42_transaction.md R164, R165). -/
def execMemRead (addr : Word) (s : State) : Result :=
  .next (s.command (.memRead addr) fun s => s.requireLink fun s => s.requirePower fun s => s.runOps (framesMemRead addr))

/-- MEM_WRITE (spec/42_transaction.md R164, R166). -/
def execMemWrite (addr d : Word) (s : State) : Result :=
  .next (s.command (.memWrite addr d) fun s => s.requireLink fun s => s.requirePower fun s =>
    s.runOps (framesMemWrite addr d))

/-- MEM_WRITE_HALF (spec/42_transaction.md R164, R167). -/
def execMemWriteHalf (addr : Word) (h : BitVec 16) (s : State) : Result :=
  .next (s.command (.memWriteHalf addr h) fun s => s.requireLink fun s => s.requirePower fun s =>
    s.runOps (framesMemWriteHalf s.par addr h))

end Sys2Proof.Machine
end

