-- ==== Sys2Proof/Machine/Dispatch.lean ====
section
/-!
DEFINITION. The dispatch: one arm per row of spec/opcode_table.json, each a call of the row's meaning.
-/
namespace Sys2Proof.Machine

def exec (i : Instr) (s : State) : Host.Outcome State Fault Refusal :=
  match i with
  | .lineReset => Sys2Proof.Machine.execLineReset s
  | .wireRead apndp a => Sys2Proof.Machine.execWireRead apndp a s
  | .wireWrite apndp a d => Sys2Proof.Machine.execWireWrite apndp a d s
  | .selectBank ap bank => Sys2Proof.Machine.execSelectBank ap bank s
  | .powerUp => Sys2Proof.Machine.execPowerUp s
  | .memRead addr => Sys2Proof.Machine.execMemRead addr s
  | .memWrite addr d => Sys2Proof.Machine.execMemWrite addr d s
  | .memWriteHalf addr h => Sys2Proof.Machine.execMemWriteHalf addr h s
  | .reqDpWriteAbort d => Sys2Proof.Machine.execReqDpWriteAbort d s
  | .reqDpWriteCtrlstat d => Sys2Proof.Machine.execReqDpWriteCtrlstat d s
  | .reqDpWriteSelect d => Sys2Proof.Machine.execReqDpWriteSelect d s
  | .reqDpWrite0C d => Sys2Proof.Machine.execReqDpWrite0C d s
  | .reqDpReadIdcode => Sys2Proof.Machine.execReqDpReadIdcode s
  | .reqDpReadCtrlstat => Sys2Proof.Machine.execReqDpReadCtrlstat s
  | .reqDpRead08 => Sys2Proof.Machine.execReqDpRead08 s
  | .reqDpReadRdbuff => Sys2Proof.Machine.execReqDpReadRdbuff s
  | .reqApWriteCsw d => Sys2Proof.Machine.execReqApWriteCsw d s
  | .reqApWriteTar d => Sys2Proof.Machine.execReqApWriteTar d s
  | .reqApWrite08 d => Sys2Proof.Machine.execReqApWrite08 d s
  | .reqApWriteDrw d => Sys2Proof.Machine.execReqApWriteDrw d s
  | .reqApReadCsw => Sys2Proof.Machine.execReqApReadCsw s
  | .reqApReadTar => Sys2Proof.Machine.execReqApReadTar s
  | .reqApRead08 => Sys2Proof.Machine.execReqApRead08 s
  | .reqApReadDrw => Sys2Proof.Machine.execReqApReadDrw s

end Sys2Proof.Machine
end

