-- ==== Sys2Proof/Machine/Step.lean ====
section
/-!
DEFINITION. The step. An idle block waits on the command port and takes the command offered there (spec/10_state.md R33;
spec/70_reset_and_hazards.md R231); a command is one step. Before a frame of a command in progress, a step is that frame; in
the middle of one, it is the rest of it. DESIGN CHOICE, safe (logs 4, 14).
-/
namespace Sys2Proof.Machine

/-- The instruction of the frame the sequencer stands before, read from the header and data shift registers. -/
def State.frameHere (s : State) : Option Instr :=
  match s.seq with
  | .idle => none
  | .pos _ ph n => if ph = .header ∧ n = 0 then decodeFrame s.dp.hdr s.dp.tx else none

/-- Runs the accepted command (spec/10_state.md R33): an illegal word raises ILLEGAL_COMMAND (spec/60_exceptions.md R208). -/
def State.dispatch (s : State) : Host.Outcome State Fault Refusal :=
  match s.current with
  | some i => exec i s
  | none => .next s.illegalCommand

/-- An instant between two actions of the block: block reset can land here (spec/70_reset_and_hazards.md R230; log 6). -/
def State.instant (s : State) (k : State → Host.Outcome State Fault Refusal) : Host.Outcome State Fault Refusal :=
  if due s.env.resets then .next s.blockReset else k (s.pass 1)

/-- A step of an idle sequencer: an accepted command runs; else the command on the port is accepted, and runs unless block reset
lands between; with none offered the block waits. -/
def State.stepIdle (s : State) : Host.Outcome State Fault Refusal :=
  if s.cmdReady then
    match s.env.offers with
    | [] => .next s
    | c :: rest => (s.accept c rest).instant State.dispatch
  else s.dispatch

/-- A step of a sequencer inside a command: the frame it stands before, or the rest of the frame (or line reset) it stands
in. -/
def State.stepInside (s : State) : Host.Outcome State Fault Refusal :=
  match s.frameHere with
  | some i => exec i s
  | none => .next (State.runFrame frameFuel s)

/-- One step. Block reset, when due, comes first (spec/70_reset_and_hazards.md R230). -/
def step (s : State) : Host.Outcome State Fault Refusal :=
  s.instant fun s =>
    match s.seq with
    | .idle => s.stepIdle
    | .pos _ _ _ => s.stepInside

/-- No block reset lands before the next instruction has begun: one that would is put off by two instants. -/
def State.holdReset (s : State) : State :=
  match s.env.resets with
  | [] => s
  | r :: rest => if r < 2 then { s with env := { s.env with resets := (r + 2) :: rest } } else s

/-- An idle block with a command at the head of the host's offers. -/
def State.withOffer (s : State) (c : Command) : State :=
  { s with seq := .idle, busy := false, env := { s.env with offers := c :: s.env.offers } }

/-- A block standing before the one frame of the raw codec command that carries a request header: the command has started
(State.begin, so its result word is 0: spec/60_exceptions.md R201; log 2), and the cache is as that command leaves it before its
frame (spec/20_memory.md R82; log 11). -/
def State.withFrame (s : State) (h : Byte) (d : Word) : State :=
  { s with
    cmd := (requestOfHeader h).rawTriple d
    busy := true
    rsp := { s.rsp with valid := false }
    result := 0#32
    cache := if requestOfHeader h = selectRequest then { s.cache with valid := false } else s.cache
    seq := .pos 0 .header 0
    dp := { s.dp with hdr := h, tx := d } }

/-- The state in which the next step takes the given instruction: a command word on the command port, a request header in the
header shift register (log 11). -/
def State.withFetchWord (s : State) (nbits w : Nat) : State :=
  match encodedOfTableWord nbits w with
  | .command c => s.holdReset.withOffer c
  | .frame h d => s.holdReset.withFrame h d

end Sys2Proof.Machine
end

