-- ==== Sys2Proof/Safety.lean ====
section
/-!
DEFINITION. The terms claims are stated in: what the target answers, what the wire shows, how a command ends, and the
invariants of the machine.
-/
namespace Sys2Proof.Machine

/-! ## The environment -/

/-- No block reset and no failure of the pin channel is scheduled. -/
def State.quiet (s : State) : Prop := s.env.resets = [] ∧ s.env.linkFaults = []

/-- `Deserialise` (spec/00_scope.md R14): the value whose bit `i` is the `i`-th bit received. -/
def deserialise (w : Nat) : List Bool → BitVec w
  | [] => 0
  | b :: bs => (BitVec.ofBool b).setWidth w ||| (deserialise w bs <<< 1)

/-- What the ticks of a phase do to a receive register: the bits received one after the other are set from bit `n` on. -/
def setBits {w : Nat} (v : BitVec w) (n : Nat) : List Bool → BitVec w
  | [] => v
  | b :: bs => setBits (setBit v n b) (n + 1) bs

/-- The number of ones of a word. -/
def popcount (v : Word) : Nat := (serialise v).count true

/-- The levels of a frame that stops at its ACK: the turnaround bit and three ACK bits (spec/41_wire_codec.md R129). -/
def ackLevels (t : Bool) (ack : BitVec 3) : List Bool := t :: serialise ack

/-- The levels of a read frame with ACK OK: turnaround, ACK, data, parity, two idle bits (R130). -/
def readLevels (t : Bool) (d : Word) (p i0 i1 : Bool) : List Bool :=
  ackLevels t ackOk ++ serialise d ++ [p, i0, i1]

/-- The levels of a write frame with ACK OK: turnaround, ACK, second turnaround (R134). -/
def writeLevels (t0 t1 : Bool) : List Bool := ackLevels t0 ackOk ++ [t1]

/-! ## The wire trace -/

/-- The `SetMode(SWDIO, m)` event of a SetMode, none if the mode does not change (spec/41_wire_codec.md R120). -/
def dioMode (was out : Bool) : List Event := if was = out then [] else [.setMode .swdio (modeOf out)]

/-- The `SetMode(SWCLK, m)` event, likewise. -/
def clkMode (was out : Bool) : List Event := if was = out then [] else [.setMode .swclk (modeOf out)]

/-- SendHeader and ReadAck (R128, R129): 12 bit cycles. `oe` is the mode SWDIO is in before. -/
def requestTrace (oe : Bool) (r : Request) (t : Bool) (ack : BitVec 3) : List Event :=
  dioMode oe true ++ (serialise r.header).map .drive ++ dioMode true false ++ (ackLevels t ack).map .sample

/-- A read frame with ACK OK (R130): 47 bit cycles. -/
def readTrace (oe : Bool) (r : Request) (t : Bool) (d : Word) (p i0 i1 : Bool) : List Event :=
  requestTrace oe r t ackOk ++ (serialise d ++ [p, i0, i1]).map .sample

/-- A write frame with ACK OK (R134): 47 bit cycles. -/
def writeTrace (oe : Bool) (r : Request) (d : Word) (t0 t1 : Bool) : List Event :=
  requestTrace oe r t0 ackOk ++ [.sample t1] ++ dioMode false true
    ++ (serialise d ++ [parity32 d, false]).map .drive

/-- LINE_RESET (R126, spec/30_encoding.md R102): 96 bit cycles. -/
def lineResetTrace (clkOe dioOe : Bool) : List Event :=
  clkMode clkOe true ++ dioMode dioOe true
    ++ (List.replicate 64 true ++ [false, true, true, true, true, false, false, true]
      ++ [true, true, true, false, false, true, true, true] ++ List.replicate 16 false).map .drive

/-- An event that is a bit cycle. -/
def Event.isCycle : Event → Bool
  | .drive _ => true
  | .sample _ => true
  | .setMode _ _ => false
  | .linkFail => false

/-- The number of bit cycles of a trace (spec/70_reset_and_hazards.md R245). -/
def bitCycles (es : List Event) : Nat := es.countP Event.isCycle

/-- The pin latches after an event (spec/10_state.md R31; spec/41_wire_codec.md R121, R122). -/
def Pins.after (p : Pins) : Event → Pins
  | .setMode pin .output => p.setMode pin true
  | .setMode pin .input => p.setMode pin false
  | .drive b => { p with swclkO := true, swdioO := b }
  | .sample _ => { p with swclkO := true }
  | .linkFail => p

/-- The pin latches during the half periods of an event (R121, R122): SWCLK low, then high. -/
def Pins.during (p : Pins) : Event → List Pins
  | .drive b => [{ p with swclkO := false, swdioO := b }, { p with swclkO := true, swdioO := b }]
  | .sample _ => [{ p with swclkO := false }, { p with swclkO := true }]
  | .setMode _ _ => []
  | .linkFail => []

/-- The pin latches after a trace. -/
def Pins.play (p : Pins) : List Event → Pins
  | [] => p
  | e :: es => (p.after e).play es

/-- The pin latches during the half periods of a trace. -/
def Pins.wave (p : Pins) : List Event → List Pins
  | [] => []
  | e :: es => p.during e ++ (p.after e).wave es

/-- From `s` to `u` the wire showed exactly the events `es`: they follow in the trace, the pins and the waveform are what the
events make them, each bit cycle took 2H (spec/70_reset_and_hazards.md R244), and the half-period timer is stopped. -/
structure Ran (s u : State) (es : List Event) : Prop where
  trace : u.obs.trace = s.obs.trace ++ es
  pins : u.pins = s.pins.play es
  wave : u.obs.wave = s.obs.wave ++ s.pins.wave es
  elapsed : u.obs.elapsed = s.obs.elapsed + 2 * halfPeriod s.par * bitCycles es
  timer : u.timer = if bitCycles es = 0 then s.timer else 0

/-! ## The end of a command -/

/-- The parameters and what the host and the channel will do next are the same in `s` and `u`. -/
structure SameOutside (s u : State) : Prop where
  par : u.par = s.par
  offers : u.env.offers = s.env.offers
  resets : u.env.resets = s.env.resets
  linkFaults : u.env.linkFaults = s.env.linkFaults

/-- A command `i` begun in `s` has ended in `u` with the given response (spec/60_exceptions.md R201, R202): the block is idle,
its operand latches hold the command (those of `s` if they held it), and nothing outside the block has changed but the levels
used. -/
structure Ended (i : Instr) (s u : State) (status : BitVec 4) (ack : BitVec 3) (data : Word) : Prop where
  rsp : u.rsp = ⟨true, status, ack, data⟩
  busy : u.busy = false
  seq : u.seq = .idle
  current : u.current = some i
  latches : s.current = some i → u.cmd = s.cmd
  outside : SameOutside s u

/-- Between `s` and `u` the wire showed exactly the events `es`, the frames `fs` ended, and the levels `ls` are left. -/
structure Exchanged (s u : State) (es : List Event) (ls : List Bool) (fs : List FrameRecord) : Prop where
  ran : Ran s u es
  levels : u.env.levels = ls
  records : u.obs.frames = s.obs.frames ++ fs

/-- The flags and the bank cache are the same in `s` and `u`. -/
structure SameFlags (s u : State) : Prop where
  linkUp : u.linkUp = s.linkUp
  dapReady : u.dapReady = s.dapReady
  cache : u.cache = s.cache

/-- Block reset came in `s` and left `u` (spec/70_reset_and_hazards.md R230, R231): every specified value is that of
spec/10_state.md R48, no event was added to the trace and no frame ended, and since `s` the pins stood as `ws` for the time `n`. -/
structure Abandoned (s u : State) (ws : List Pins) (n : Nat) : Prop where
  pins : u.pins = ⟨false, true, false, true⟩
  linkUp : u.linkUp = false
  dapReady : u.dapReady = false
  cache : u.cache = ⟨false, 0x00#8, 0x00#8⟩
  busy : u.busy = false
  rsp : u.rsp = ⟨false, 0#4, 0b000#3, 0x00000000#32⟩
  seq : u.seq = .idle
  timer : u.timer = 0
  par : u.par = s.par
  offers : u.env.offers = s.env.offers
  trace : u.obs.trace = s.obs.trace
  frames : u.obs.frames = s.obs.frames
  wave : u.obs.wave = s.obs.wave ++ ws
  elapsed : u.obs.elapsed = s.obs.elapsed + n

/-- A failure of the channel came in `s` and left `u` (spec/60_exceptions.md R202, R205): TRANSPORT_ERROR, the flags down, the
cache invalid if the frame was a cache-miss SELECT write. Of the trace it is the last event, and the pins showed nothing more in
it (log 7). -/
structure Failed (s u : State) : Prop where
  rsp : u.rsp = ⟨true, statusTransportError, 0b000#3, 0x00000000#32⟩
  busy : u.busy = false
  seq : u.seq = .idle
  linkUp : u.linkUp = false
  dapReady : u.dapReady = false
  cache : u.cache = if s.selecting then { s.cache with valid := false } else s.cache
  par : u.par = s.par
  offers : u.env.offers = s.env.offers
  trace : u.obs.trace = s.obs.trace ++ [.linkFail]
  wave : u.obs.wave = s.obs.wave
  elapsed : u.obs.elapsed = s.obs.elapsed

/-- The record of a frame that completed. -/
def completedFrame (r : Request) (d : Word) : FrameRecord := ⟨r.header, d, ackOk, .completed⟩

/-- A record of a DP SELECT write. -/
def FrameRecord.isSelect (f : FrameRecord) : Bool := decide (f.header = selectRequest.header)

/-- The number of DP SELECT writes among the frames that ended. -/
def selectCount (s : State) : Nat := s.obs.frames.countP FrameRecord.isSelect

/-- The most recent DP SELECT write. -/
def lastSelect (s : State) : Option FrameRecord := (s.obs.frames.filter FrameRecord.isSelect).getLast?

/-! ## Commands, frame by frame

What spec/42_transaction.md R160 and R161 say of a command, one frame at a time: the bit cycles of a frame are those of
requestTrace, readTrace and writeTrace, and the sequencer, its positions and its shift registers do not occur. -/

/-- What the target answers to a frame: ACK OK with the data phase of a read or the second turnaround of a write, or another
ACK. -/
inductive Answer where
  | read (t : Bool) (d : Word) (p i0 i1 : Bool)
  | write (t0 t1 : Bool)
  | bad (t : Bool) (ack : BitVec 3)
  deriving DecidableEq, Repr

/-- The levels of an answer, in the order they are sampled. -/
def Answer.levels : Answer → List Bool
  | .read t d p i0 i1 => readLevels t d p i0 i1
  | .write t0 t1 => writeLevels t0 t1
  | .bad t ack => ackLevels t ack

/-- The bit cycles of a frame with this answer (spec/70_reset_and_hazards.md R245). -/
def Answer.cycles : Answer → Nat
  | .read _ _ _ _ _ => 47
  | .write _ _ => 47
  | .bad _ _ => 12

/-- The frames of a command when every ACK is OK: the table of spec/70_reset_and_hazards.md R246, `c` being the cache before it.
A request header is one frame. -/
def frameCount (c : Cache) : Instr → Nat
  | .lineReset => 0
  | .wireRead _ _ => 1
  | .wireWrite _ _ _ => 1
  | .selectBank ap bank => if c.hit ap bank then 0 else 1
  | .powerUp => 5
  | .memRead _ => if c.hit 0x00#8 0x00#8 then 3 else 4
  | .memWrite _ _ => if c.hit 0x00#8 0x00#8 then 2 else 3
  | .memWriteHalf _ _ => if c.hit 0x00#8 0x00#8 then 4 else 5
  | .reqDpWriteAbort _ => 1
  | .reqDpWriteCtrlstat _ => 1
  | .reqDpWriteSelect _ => 1
  | .reqDpWrite0C _ => 1
  | .reqDpReadIdcode => 1
  | .reqDpReadCtrlstat => 1
  | .reqDpRead08 => 1
  | .reqDpReadRdbuff => 1
  | .reqApWriteCsw _ => 1
  | .reqApWriteTar _ => 1
  | .reqApWrite08 _ => 1
  | .reqApWriteDrw _ => 1
  | .reqApReadCsw => 1
  | .reqApReadTar => 1
  | .reqApRead08 => 1
  | .reqApReadDrw => 1

/-- The cache when the entry's frame starts: a raw SELECT write invalidates it (spec/20_memory.md R82). -/
def FrameOp.cacheAtStart (c : Cache) : FrameOp → Cache
  | .select _ _ => c
  | .read _ _ _ => c
  | .write apndp a _ => if apndp = false ∧ a = 2#2 then { c with valid := false } else c

/-- The cache after the entry's frame ended with ACK OK (spec/20_memory.md R80, R82, R84). -/
def FrameOp.cacheOnOk (c : Cache) (op : FrameOp) : Cache :=
  match op with
  | .select ap bank => ⟨true, ap, bankBits bank⟩
  | .read _ _ _ => op.cacheAtStart c
  | .write _ _ _ => op.cacheAtStart c

/-- The cache after the entry's frame raised (spec/20_memory.md R81, R82, R84). -/
def FrameOp.cacheOnFault (c : Cache) (op : FrameOp) : Cache :=
  match op with
  | .select _ _ => { c with valid := false }
  | .read _ _ _ => op.cacheAtStart c
  | .write _ _ _ => op.cacheAtStart c

/-- The entry reads the command's result word. -/
def FrameOp.keeps : FrameOp → Bool
  | .read _ _ keep => keep
  | .write _ _ _ => false
  | .select _ _ => false

/-- What a command leaves: its wire trace, the frames that ended, the bank cache and the response. -/
structure Report where
  trace : List Event
  records : List FrameRecord
  cache : Cache
  rsp : Response
  deriving DecidableEq, Repr

/-- A frame before the rest of a command. -/
def Report.behind (r : Report) (es : List Event) (f : FrameRecord) : Report :=
  { r with trace := es ++ r.trace, records := f :: r.records }

/-- The report of a list of frames under a list of answers. `oe`: SWDIO is in output mode; `v`: the result word so far; `ack`:
the `rsp_ack` of completing here. -/
def report : List FrameOp → List Answer → Bool → Cache → Word → BitVec 3 → Report
  | [], _, _, c, v, ack => ⟨[], [], c, ⟨true, statusOk, ack, v⟩⟩
  | op :: ops, as, oe, c, v, ack =>
    if op.hits c then report ops as oe c v ack
    else match as with
      | [] => ⟨[], [], c, ⟨true, statusOk, ack, v⟩⟩
      | .bad t k :: _ =>
        ⟨requestTrace oe op.request t k, [⟨op.request.header, if op.request.rnw then 0#32 else op.data, k, .ackFault⟩],
          op.cacheOnFault c, ⟨true, statusAckFault, k, 0#32⟩⟩
      | .read t d p i0 i1 :: as =>
        if p = parity32 d then
          (report ops as false c (if op.keeps then d else v) ackOk).behind (readTrace oe op.request t d p i0 i1)
            (completedFrame op.request d)
        else
          ⟨readTrace oe op.request t d p i0 i1, [⟨op.request.header, d, ackOk, .parityError⟩], c,
            ⟨true, statusParityError, ackOk, d⟩⟩
      | .write t0 t1 :: as =>
        (report ops as true (op.cacheOnOk c) v ackOk).behind (writeTrace oe op.request op.data t0 t1)
          (completedFrame op.request op.data)

/-- The answers are to these frames, one for each frame that comes to the wire. -/
def Answered : List FrameOp → List Answer → Cache → Prop
  | [], as, _ => as = []
  | op :: ops, as, c =>
    if op.hits c then Answered ops as c
    else match as with
      | [] => False
      | .bad _ k :: as => k ≠ ackOk ∧ as = []
      | .read _ d p _ _ :: as => op.request.rnw = true ∧ if p = parity32 d then Answered ops as c else as = []
      | .write _ _ :: as => op.request.rnw = false ∧ Answered ops as (op.cacheOnOk c)

/-- The commands whose rules list frames. -/
def listsFrames : Instr → Bool
  | .lineReset => false
  | .wireRead _ _ => true
  | .wireWrite _ _ _ => true
  | .selectBank _ _ => true
  | .powerUp => true
  | .memRead _ => true
  | .memWrite _ _ => true
  | .memWriteHalf _ _ => true
  | .reqDpWriteAbort _ => false
  | .reqDpWriteCtrlstat _ => false
  | .reqDpWriteSelect _ => false
  | .reqDpWrite0C _ => false
  | .reqDpReadIdcode => false
  | .reqDpReadCtrlstat => false
  | .reqDpRead08 => false
  | .reqDpReadRdbuff => false
  | .reqApWriteCsw _ => false
  | .reqApWriteTar _ => false
  | .reqApWrite08 _ => false
  | .reqApWriteDrw _ => false
  | .reqApReadCsw => false
  | .reqApReadTar => false
  | .reqApRead08 => false
  | .reqApReadDrw => false

/-- The commands that need `dap_ready` (spec/60_exceptions.md R207). -/
def needsPower : Instr → Bool
  | .lineReset => false
  | .wireRead _ _ => false
  | .wireWrite _ _ _ => false
  | .selectBank _ _ => false
  | .powerUp => false
  | .memRead _ => true
  | .memWrite _ _ => true
  | .memWriteHalf _ _ => true
  | .reqDpWriteAbort _ => false
  | .reqDpWriteCtrlstat _ => false
  | .reqDpWriteSelect _ => false
  | .reqDpWrite0C _ => false
  | .reqDpReadIdcode => false
  | .reqDpReadCtrlstat => false
  | .reqDpRead08 => false
  | .reqDpReadRdbuff => false
  | .reqApWriteCsw _ => false
  | .reqApWriteTar _ => false
  | .reqApWrite08 _ => false
  | .reqApWriteDrw _ => false
  | .reqApReadCsw => false
  | .reqApReadTar => false
  | .reqApRead08 => false
  | .reqApReadDrw => false

/-- The commands that invalidate the bank cache before the first bit cycle: POWER_UP, and WIRE_WRITE of DP SELECT
(spec/20_memory.md R82, R83). -/
def forgetsBank : Instr → Bool
  | .lineReset => false
  | .wireRead _ _ => false
  | .wireWrite apndp a _ => !apndp && decide (a = 2#2)
  | .selectBank _ _ => false
  | .powerUp => true
  | .memRead _ => false
  | .memWrite _ _ => false
  | .memWriteHalf _ _ => false
  | .reqDpWriteAbort _ => false
  | .reqDpWriteCtrlstat _ => false
  | .reqDpWriteSelect _ => false
  | .reqDpWrite0C _ => false
  | .reqDpReadIdcode => false
  | .reqDpReadCtrlstat => false
  | .reqDpRead08 => false
  | .reqDpReadRdbuff => false
  | .reqApWriteCsw _ => false
  | .reqApWriteTar _ => false
  | .reqApWrite08 _ => false
  | .reqApWriteDrw _ => false
  | .reqApReadCsw => false
  | .reqApReadTar => false
  | .reqApRead08 => false
  | .reqApReadDrw => false

/-- The cache at the start of a command's first frame. -/
def startCache (i : Instr) (c : Cache) : Cache := if forgetsBank i then { c with valid := false } else c

/-! ## Invariants -/

/-- The bank of the cache is a multiple of 0x10 (spec/10_state.md R37). -/
def BankAligned (s : State) : Prop := s.cache.bank &&& 0x0F#8 = 0#8

/-- A response in force has one of the forms of spec/60_exceptions.md R200 to R202. -/
structure ResponseShape (r : Response) : Prop where
  /-- Codes 7 to 15 are never produced (R200). -/
  defined : r.status ≤ 6#4
  /-- `respond(OK, ack, data)`: `ack` is 0b001 or 0b000 (R201). -/
  ok : r.status = statusOk → r.ack = ackOk ∨ r.ack = 0#3
  /-- ACK_FAULT carries the raw ACK, never 0b001, and no data (R202). -/
  ackFault : r.status = statusAckFault → r.ack ≠ ackOk ∧ r.data = 0#32
  /-- PARITY_ERROR comes after an ACK OK (R202). -/
  parityError : r.status = statusParityError → r.ack = ackOk
  /-- The others carry neither ACK nor data (R202). -/
  others : 3#4 ≤ r.status → r.ack = 0#3 ∧ r.data = 0#32

/-- The frame in progress is the one the command's rule lists at the sequencer's step, and its registers hold it; a raw SELECT
write runs with the cache invalid (spec/20_memory.md R82). -/
structure FrameLoaded (s : State) (op : FrameOp) : Prop where
  listed : s.frameOp = some op
  header : s.dp.hdr = op.request.header
  word : s.dp.tx = op.data
  rawSelect : ∀ d, op = .write false 2 d → s.cache.valid = false

/-- The phases of a frame after its ACK test. -/
def Phase.pastAck : Phase → Bool
  | .trn2 => true
  | .data => true
  | .parity => true
  | .idle => true
  | .header => false
  | .trn1 => false
  | .ack => false
  | .ones => false
  | .magic => false
  | .idleSync => false

/-- The invariant of the block. -/
structure Inv (s : State) : Prop where
  /-- Busy exactly while the sequencer is not at IDLE (spec/10_state.md R39, R42). -/
  busy : s.busy = true ↔ s.seq ≠ .idle
  /-- spec/10_state.md R37. -/
  bank : BankAligned s
  /-- The half-period timer is stopped between bit cycles. -/
  timer : s.timer = 0
  /-- `dap_ready` only on a link that is up (spec/10_state.md R35, R36). -/
  ready : s.dapReady = true → s.linkUp = true
  /-- On a link that is up, SWCLK is driven and rests high between bit cycles (spec/41_wire_codec.md R125). -/
  clock : s.linkUp = true → s.pins.swclkOe = true ∧ s.pins.swclkO = true
  /-- A frame runs only on a link that is up, and is a frame of the command in progress. -/
  frame : s.seq.inFrame = true → s.linkUp = true ∧ ∃ op, FrameLoaded s op
  /-- A frame past its ACK test received ACK OK (spec/41_wire_codec.md R129). -/
  acked : ∀ k ph n, s.seq = .pos k ph n → ph.pastAck = true → s.dp.ack = ackOk
  /-- A line reset past its first bit drives SWCLK. -/
  lineReset : ∀ k ph n, s.seq = .pos k ph n → ph.inFrame = false → ph ≠ .ones ∨ n ≠ 0 →
    s.pins.swclkOe = true ∧ s.pins.swclkO = true
  /-- The cache invariant of spec/10_state.md R38: while the cache is valid, the most recent SELECT write ended with ACK OK and
  wrote the cached value. -/
  cache : s.cache.valid = true →
    ∃ f, lastSelect s = some f ∧ f.ending = .completed ∧ f.ack = ackOk ∧
      f.data = (s.cache.ap.setWidth 32 <<< 24) ||| s.cache.bank.setWidth 32

end Sys2Proof.Machine
end

