-- ==== Sys2Proof/Certificates/Slice0/Obligations.lean ====
section
/-!
DEFINITION. The statements for the provers. Each docstring names the rules of spec/ it formalises and, where a clause is the
model's choice, the log entry. A level list `readLevels …`, `writeLevels …` or `ackLevels …` is what the target answers to one
frame; a statement about a command holds for every answer of the form it names, with every turnaround, data and idle bit.
-/
open Sys2Proof Sys2Proof.Machine

/-! ## Encoding -/

/-- Decoding an encoded instruction gives it back, for every instruction and every operand (spec/30_encoding.md R94, R96, R97,
R103, R104, R108). -/
def Obligations.DecodeInvertsEncode : Prop := ∀ i : Instr, decode (encode i) = some i

/-- Every command word is exactly one row of the opcode table, by the masks and matches of spec/30_encoding.md R94, or illegal,
and it is illegal exactly when it does not decode. -/
def Obligations.CommandDecodingIsTotal : Prop :=
  ∀ c : Command,
    (decodeCommand c).isSome = c.legal ∧
    ([(0xFFFFFFFF#32, 0x00000001#32), (0xFFFFFF8F#32, 0x00000002#32), (0xFFFFFF8F#32, 0x00000003#32),
      (0xFF0000FF#32, 0x00000004#32), (0xFFFFFFFF#32, 0x00000005#32), (0xFFFFFFFF#32, 0x00000006#32),
      (0xFFFFFFFF#32, 0x00000007#32), (0xFFFFFFFF#32, 0x00000008#32)].countP
        fun row => decide (c.word &&& row.1 = row.2)) = (if c.legal then 1 else 0)

/-- Bits of `cmd.addr` and `cmd.data` that a command does not use are ignored (spec/30_encoding.md R93, R92). -/
def Obligations.UnusedOperandBitsAreIgnored : Prop :=
  ∀ (w a d a' d' : Word),
    (w.extractLsb' 0 4 ∈ [1#4, 2#4, 4#4, 5#4] → decodeCommand ⟨w, a, d⟩ = decodeCommand ⟨w, a', d'⟩) ∧
    (w.extractLsb' 0 4 = 3#4 → decodeCommand ⟨w, a, d⟩ = decodeCommand ⟨w, a', d⟩) ∧
    (w.extractLsb' 0 4 = 6#4 → decodeCommand ⟨w, a, d⟩ = decodeCommand ⟨w, a, d'⟩) ∧
    (w.extractLsb' 0 4 = 8#4 → d.extractLsb' 0 16 = d'.extractLsb' 0 16 →
      decodeCommand ⟨w, a, d⟩ = decodeCommand ⟨w, a, d'⟩)

/-- The header byte of each of the 16 requests, and no other byte decodes (spec/30_encoding.md R97). -/
def Obligations.RequestHeadersAreTheSixteen : Prop :=
  ∀ d : Word,
    encode (.reqDpWriteAbort d) = .frame 0x81#8 d ∧ encode (.reqDpWriteCtrlstat d) = .frame 0xA9#8 d ∧
    encode (.reqDpWriteSelect d) = .frame 0xB1#8 d ∧ encode (.reqDpWrite0C d) = .frame 0x99#8 d ∧
    encode .reqDpReadIdcode = .frame 0xA5#8 0 ∧ encode .reqDpReadCtrlstat = .frame 0x8D#8 0 ∧
    encode .reqDpRead08 = .frame 0x95#8 0 ∧ encode .reqDpReadRdbuff = .frame 0xBD#8 0 ∧
    encode (.reqApWriteCsw d) = .frame 0xA3#8 d ∧ encode (.reqApWriteTar d) = .frame 0x8B#8 d ∧
    encode (.reqApWrite08 d) = .frame 0x93#8 d ∧ encode (.reqApWriteDrw d) = .frame 0xBB#8 d ∧
    encode .reqApReadCsw = .frame 0x87#8 0 ∧ encode .reqApReadTar = .frame 0xAF#8 0 ∧
    encode .reqApRead08 = .frame 0xB7#8 0 ∧ encode .reqApReadDrw = .frame 0x9F#8 0 ∧
    ∀ h : Byte, (decodeFrame h d).isSome =
      decide (h ∈ [0x81#8, 0xA9#8, 0xB1#8, 0x99#8, 0xA5#8, 0x8D#8, 0x95#8, 0xBD#8, 0xA3#8, 0x8B#8, 0x93#8, 0xBB#8, 0x87#8,
        0xAF#8, 0xB7#8, 0x9F#8])

/-- The bits of a request header (spec/30_encoding.md R95); a byte decodes exactly when it has Start 1, Stop 0, Park 1 and even
parity over bits 1 to 5, and every request's header does (R98). -/
def Obligations.OnlyLegalHeadersDecode : Prop :=
  (∀ r : Request,
    r.header.getLsbD 0 = true ∧ r.header.getLsbD 1 = r.apndp ∧ r.header.getLsbD 2 = r.rnw ∧
    r.header.getLsbD 3 = r.a.getLsbD 0 ∧ r.header.getLsbD 4 = r.a.getLsbD 1 ∧
    r.header.getLsbD 5 = parity4 r.apndp r.rnw (r.a.getLsbD 0) (r.a.getLsbD 1) ∧
    r.header.getLsbD 6 = false ∧ r.header.getLsbD 7 = true ∧ headerLegal r.header = true) ∧
  ∀ (h : Byte) (d : Word), (decodeFrame h d).isSome = headerLegal h

/-- The example encodings of spec/30_encoding.md R109 decode to the commands they stand for. -/
def Obligations.ExampleCommandWordsDecode : Prop :=
  (∀ a d : Word, decodeCommand ⟨0x00000062#32, a, d⟩ = some (.wireRead false 3)) ∧
  (∀ a d : Word, decodeCommand ⟨0x00000072#32, a, d⟩ = some (.wireRead true 3)) ∧
  (∀ a : Word, decodeCommand ⟨0x00000003#32, a, 0x0000001E#32⟩ = some (.wireWrite false 0 0x0000001E#32)) ∧
  (∀ a v : Word, decodeCommand ⟨0x00000043#32, a, v⟩ = some (.wireWrite false 2 v)) ∧
  (∀ a d : Word, decodeCommand ⟨0x0001F004#32, a, d⟩ = some (.selectBank 0x01#8 0xF0#8))

/-! ## Values -/

/-- Data parity is the XOR of the 32 bits, which is the number of ones mod 2, header parity the XOR of its four bits, and with
either the number of ones sent is even (spec/00_scope.md R13). -/
def Obligations.ParityIsEven : Prop :=
  (∀ v : Word, parity32 v = (List.range 32).foldl (fun b i => b ^^ v.getLsbD i) false ∧
    parity32 v = decide (popcount v % 2 = 1) ∧ (serialise v ++ [parity32 v]).count true % 2 = 0) ∧
  (∀ p r a b : Bool, parity4 p r a b = (p ^^ r ^^ a ^^ b) ∧ [p, r, a, b, parity4 p r a b].count true % 2 = 0)

/-- Bits are sent and received least significant first (spec/00_scope.md R14, spec/20_memory.md R67). Bit `i` of a value is
place `i` of its list; a receive register that takes the bits of a list in order, whatever it held, ends with the value R14 gives
the list, and the list of a value gives the value. And the bit cycles do so: bit cycle `n` of HEADER and of a write's DATA drives
bit `n` of the header and of the word, bit cycle `n` of a read's DATA and of ACK sets bit `n` of the word and of the ACK. -/
def Obligations.BitsTravelLeastSignificantFirst : Prop :=
  (∀ (w : Nat) (v : BitVec w), (serialise v).length = w ∧ ∀ i < w, (serialise v)[i]? = some (v.getLsbD i)) ∧
  (∀ (w : Nat) (x v : BitVec w) (bs : List Bool), bs.length = w →
    setBits x 0 bs = deserialise w bs ∧ setBits x 0 (serialise v) = v) ∧
  (∀ (s : State) (k n : Nat), s.quiet → n < 8 → s.seq = .pos k .header n →
    ∃ t, s.tickFlow = .on t ∧ t.dp = s.dp ∧
      t.obs.trace = s.obs.trace ++ ((if n = 0 then dioMode s.pins.swdioOe true else []) ++ [.drive (s.dp.hdr.getLsbD n)])) ∧
  (∀ (s : State) (k n : Nat), s.quiet → n < 32 → s.seq = .pos k .data n → s.dp.reading = false →
    ∃ t, s.tickFlow = .on t ∧ t.dp = s.dp ∧
      t.obs.trace = s.obs.trace ++ ((if n = 0 then dioMode s.pins.swdioOe true else []) ++ [.drive (s.dp.tx.getLsbD n)])) ∧
  (∀ (s : State) (k n : Nat) (b : Bool) (ls : List Bool), s.quiet → n < 32 → s.seq = .pos k .data n →
    s.dp.reading = true → s.pins.swdioOe = false → s.env.levels = b :: ls →
    ∃ t, s.tickFlow = .on t ∧ t.dp = { s.dp with rx := setBit s.dp.rx n b } ∧
      t.obs.trace = s.obs.trace ++ [.sample b]) ∧
  ∀ (s : State) (k n : Nat) (b : Bool) (ls : List Bool), s.quiet → s.seq = .pos k .ack n →
    n < 2 ∨ (n = 2 ∧ setBit s.dp.ack n b = ackOk) → s.pins.swdioOe = false → s.env.levels = b :: ls →
    ∃ t, s.tickFlow = .on t ∧ t.dp = { s.dp with ack := setBit s.dp.ack n b } ∧ t.obs.trace = s.obs.trace ++ [.sample b]

/-- SELECT as the block writes it (spec/20_memory.md R87): its fields, and that a bank selection sends it. -/
def Obligations.SelectValuePacking : Prop :=
  ∀ ap bank : Byte,
    (selectValue ap bank).extractLsb' 24 8 = ap ∧ (selectValue ap bank).extractLsb' 8 16 = 0#16 ∧
    (selectValue ap bank).extractLsb' 0 8 = bank &&& 0xF0#8 ∧ (selectValue ap bank).extractLsb' 0 4 = 0#4 ∧
    selectValue ap bank = (ap.setWidth 32 <<< 24) ||| (bank &&& 0xF0#8).setWidth 32 ∧
    (FrameOp.select ap bank).request = selectRequest ∧ (FrameOp.select ap bank).data = selectValue ap bank

/-- The lane of a halfword write (spec/20_memory.md R69): the DRW word of MEM_WRITE_HALF, its fourth entry. -/
def Obligations.HalfwordLane : Prop :=
  ∀ (addr : Word) (h : BitVec 16) (p : Params),
    (frames p (.memWriteHalf addr h))[3]? = some (.write true 3 (halfLane addr h)) ∧
    halfLane addr h = h.setWidth 32 <<< (if addr.getLsbD 1 then 16 else 0) ∧
    (addr.getLsbD 1 = false →
      (halfLane addr h).extractLsb' 0 16 = h ∧ (halfLane addr h).extractLsb' 16 16 = 0#16) ∧
    (addr.getLsbD 1 = true →
      (halfLane addr h).extractLsb' 16 16 = h ∧ (halfLane addr h).extractLsb' 0 16 = 0#16) ∧
    halfLane (addr ^^^ 1#32) h = halfLane addr h

/-- CSW as the block writes it, for every CSW_BASE (spec/20_memory.md R89): the two values, and the frames that send them. -/
def Obligations.CswValues : Prop :=
  ∀ p : Params,
    cswBase p &&& 0x3F#32 = 0#32 ∧ cswWord p = cswBase p ||| 0x00000002#32 ∧ cswHalf p = cswBase p ||| 0x00000001#32 ∧
    (cswWord p).extractLsb' 0 6 = 0b000010#6 ∧ (cswHalf p).extractLsb' 0 6 = 0b000001#6 ∧
    (cswWord p).extractLsb' 6 26 = p.cswHigh ∧ (cswHalf p).extractLsb' 6 26 = p.cswHigh ∧
    (frames p .powerUp)[4]? = some (.write true 0 (cswWord p)) ∧
    ∀ (addr : Word) (h : BitVec 16), (frames p (.memWriteHalf addr h))[1]? = some (.write true 0 (cswHalf p)) ∧
      (frames p (.memWriteHalf addr h))[4]? = some (.write true 0 (cswWord p))

/-- The fields of `status_word`, and its value after block reset (spec/10_state.md R41). -/
def Obligations.StatusWordFields : Prop :=
  (∀ s : State,
    s.statusWord.extractLsb' 0 4 = s.rsp.status ∧ s.statusWord.extractLsb' 4 3 = s.rsp.ack ∧
    s.statusWord.getLsbD 7 = s.rsp.valid ∧ s.statusWord.getLsbD 8 = s.busy ∧ s.statusWord.getLsbD 9 = s.linkUp ∧
    s.statusWord.getLsbD 10 = s.dapReady ∧ s.statusWord.getLsbD 11 = s.cache.valid ∧
    s.statusWord.extractLsb' 12 4 = 0#4 ∧ s.statusWord.extractLsb' 16 8 = s.cache.ap ∧
    s.statusWord.extractLsb' 24 8 = s.cache.bank) ∧
  State.reset.statusWord = 0x00000000#32

/-! ## Bit cycles -/

/-- DriveBit (spec/41_wire_codec.md R121): SWCLK low with SWDIO at its level for H, then SWCLK high for H; the event enters the
trace. -/
def Obligations.DriveBitWaveform : Prop :=
  ∀ (s : State) (b : Bool), s.quiet → s.pins.swdioOe = true →
    ∃ t, s.driveBit b = .on t ∧
      t.obs.wave = s.obs.wave ++ [⟨s.pins.swclkOe, false, true, b⟩, ⟨s.pins.swclkOe, true, true, b⟩] ∧
      t.pins = ⟨s.pins.swclkOe, true, true, b⟩ ∧ t.obs.elapsed = s.obs.elapsed + halfPeriod s.par + halfPeriod s.par ∧
      t.obs.trace = s.obs.trace ++ [.drive b] ∧ t.timer = 0 ∧ t.env = s.env

/-- SampleBit (spec/41_wire_codec.md R122): SWCLK low for H, the level is taken, then SWCLK high for H; SWDIO is not driven. -/
def Obligations.SampleBitWaveform : Prop :=
  ∀ (s : State) (b : Bool) (ls : List Bool), s.quiet → s.pins.swdioOe = false → s.env.levels = b :: ls →
    ∃ t, s.sampleBit (fun x u => .on (u.withDp { u.dp with par := x })) = .on t ∧ t.dp.par = b ∧ t.env.levels = ls ∧
      t.obs.wave = s.obs.wave ++ [⟨s.pins.swclkOe, false, false, s.pins.swdioO⟩, ⟨s.pins.swclkOe, true, false, s.pins.swdioO⟩] ∧
      t.pins = ⟨s.pins.swclkOe, true, false, s.pins.swdioO⟩ ∧
      t.obs.elapsed = s.obs.elapsed + halfPeriod s.par + halfPeriod s.par ∧ t.obs.trace = s.obs.trace ++ [.sample b] ∧
      t.timer = 0

/-- SetMode (spec/10_state.md R31; spec/41_wire_codec.md R120, R123): writes the pin's output enable, enters the trace only when
it changes it, and takes no time. -/
def Obligations.SetModeIsAnEventOnChange : Prop :=
  ∀ (s : State) (pin : Pin) (out : Bool), s.quiet →
    ∃ t, s.setMode pin out = .on t ∧ t.pins = s.pins.setMode pin out ∧ t.obs.elapsed = s.obs.elapsed ∧
      t.obs.wave = s.obs.wave ∧
      t.obs.trace = s.obs.trace ++ (if s.pins.isOut pin = out then [] else [.setMode pin (modeOf out)])

/-- The bit cycles that instructions add to the trace (spec/70_reset_and_hazards.md R245, R246): 96 by LINE_RESET; by a command
that lists frames, 47 for each frame with ACK OK and 12 for one whose ACK is not, so 47 times the frames of R246's table if it
ends OK, and 47(k-1) + 12 or 47k if frame `k` fails its ACK or its parity; none by one that raises NOT_INITIALISED or NOT_POWERED.
(That an illegal command adds none is IllegalCommandChangesOnlyTheResponse.) That a cache POWER_UP left valid counts as a hit is the
model's choice (log 21). -/
def Obligations.BitCycleCounts : Prop :=
  (∀ s : State, s.quiet → s.seq = .idle →
    ∃ u, exec .lineReset s = .next u ∧ bitCycles u.obs.trace = bitCycles s.obs.trace + 96) ∧
  (∀ (s : State) (i : Instr) (as : List Answer) (rest : List Bool),
    s.quiet → s.seq = .idle → listsFrames i = true → s.linkUp = true → (needsPower i = true → s.dapReady = true) →
    Answered (frames s.par i) as (startCache i s.cache) → s.env.levels = as.flatMap Answer.levels ++ rest →
    ∃ u, exec i s = .next u ∧
      bitCycles u.obs.trace = bitCycles s.obs.trace + (as.map Answer.cycles).sum ∧
      (u.rsp.status = statusOk → bitCycles u.obs.trace = bitCycles s.obs.trace + 47 * frameCount s.cache i) ∧
      (u.rsp.status = statusAckFault → bitCycles u.obs.trace = bitCycles s.obs.trace + (47 * (as.length - 1) + 12)) ∧
      (u.rsp.status = statusParityError → bitCycles u.obs.trace = bitCycles s.obs.trace + 47 * as.length)) ∧
  ∀ (s : State) (i : Instr), listsFrames i = true → s.seq = .idle →
    s.linkUp = false ∨ (needsPower i = true ∧ s.dapReady = false) →
    ∃ u, exec i s = .next u ∧ bitCycles u.obs.trace = bitCycles s.obs.trace

/-! ## The step, block reset, and commands that do not start -/

/-- A step of an idle block takes the command on the port: it latches the triple, raises `busy`, clears `rsp_valid`, and runs
the instruction the word decodes to (spec/10_state.md R33). The model's choices in it: the offers are a list (log 4), a whole
command is a step (log 14), acceptance keeps the other response registers (log 18), and block reset could land at two instants
before the instruction runs, which pass (log 6). -/
def Obligations.StepRunsTheOfferedCommand : Prop :=
  ∀ (s : State) (c : Command) (rest : List Command) (i : Instr),
    lands 2 s.env.resets = none → s.seq = .idle → s.busy = false → s.env.offers = c :: rest → decodeCommand c = some i →
    step s = exec i
      { s with
        cmd := c, busy := true, rsp := { s.rsp with valid := false },
        env := { s.env with offers := rest, resets := elapse 2 s.env.resets } }

/-- A step of a block that stands before a frame runs the instruction its header decodes to (spec/10_state.md R42). That such a
frame is a step of its own and an instruction is the model's choice (logs 10, 14), as is the instant that passes before it (log
6). -/
def Obligations.StepRunsTheFrameItStandsBefore : Prop :=
  ∀ (s : State) (k : Nat) (i : Instr),
    due s.env.resets = false → s.seq = .pos k .header 0 → decodeFrame s.dp.hdr s.dp.tx = some i → step s = exec i (s.pass 1)

/-- A block with nothing to do waits: an idle block with no command offered changes nothing (spec/70_reset_and_hazards.md R231),
and a command whose turn has not come, because another is in progress, is not started (spec/60_exceptions.md R212). The model's
choices in it: that exec of such a command leaves the state as it is (log 14), that no command offered is an empty list (log 4),
and that one instant passes for the reset schedule (log 6). -/
def Obligations.CommandPortWaits : Prop :=
  (∀ s : State, due s.env.resets = false → s.seq = .idle → s.busy = false → s.env.offers = [] →
    step s = .next (s.pass 1)) ∧
  ∀ (i : Instr) (s : State), i.request = none → s.seq ≠ .idle → exec i s = .next s

/-- Block reset gives every piece of state the value of spec/10_state.md R48, whatever the state, and so has State.reset; what
has been seen, the parameters, the offers and the levels to come are not state of the block and stay. -/
def Obligations.BlockResetGivesTheResetValues : Prop :=
  let values := fun t : State =>
    t.pins = ⟨false, true, false, true⟩ ∧ t.linkUp = false ∧ t.dapReady = false ∧ t.cache = ⟨false, 0x00#8, 0x00#8⟩ ∧
    t.busy = false ∧ t.rsp = ⟨false, 0#4, 0b000#3, 0x00000000#32⟩ ∧ t.seq = .idle ∧ t.timer = 0
  values State.reset ∧
  ∀ s : State, due s.env.resets = true →
    ∃ t, step s = .next t ∧ values t ∧ t.par = s.par ∧ t.obs = s.obs ∧ t.env.offers = s.env.offers ∧
      t.env.levels = s.env.levels ∧ t.env.resets = s.env.resets.tail

/-- Block reset abandons the command wherever it stands, with no bit cycle and no response (spec/70_reset_and_hazards.md R230,
R231): before any wire event, be it the first of its tick or the bit cycle behind a mode change; inside a bit cycle, at any count
of the half-period timer, the low half or the low half and a part of the high one then being all that the pins showed; and between
acceptance and a command's first action.
The model's choices in it: how the moment is scheduled, that a reset takes no time, and that a bit cycle cut short is no event
(log 6). -/
def Obligations.BlockResetAbandonsTheCommand : Prop :=
  (∀ s : State, due s.env.resets = true →
    ∃ u, Abandoned s u [] 0 ∧ (∀ k, s.event k = .off u) ∧ (∀ b, s.driveBit b = .off u) ∧ (∀ k, s.sampleBit k = .off u) ∧
      (∀ pin out, s.pins.isOut pin ≠ out → s.setMode pin out = .off u) ∧
      (s.seq ≠ .idle → s.tickFlow = .off u ∧ State.runFrame frameFuel s = u)) ∧
  (∀ (s : State) (b : Bool) (n : Nat) (rest : List Nat),
    s.pins.swdioOe = true → s.linkFailsNow = false → s.env.resets = (n + 1) :: rest → n < 2 * halfPeriod s.par →
    ∃ u, s.driveBit b = .off u ∧
      Abandoned s u
        (if n < halfPeriod s.par then [⟨s.pins.swclkOe, false, true, b⟩]
          else [⟨s.pins.swclkOe, false, true, b⟩, ⟨s.pins.swclkOe, true, true, b⟩]) n) ∧
  (∀ (s : State) (k : Bool → State → Flow) (n : Nat) (rest : List Nat),
    s.pins.swdioOe = false → s.linkFailsNow = false → s.env.resets = (n + 1) :: rest → n < 2 * halfPeriod s.par →
    ∃ u, s.sampleBit k = .off u ∧
      Abandoned s u
        (if n < halfPeriod s.par then [⟨s.pins.swclkOe, false, false, s.pins.swdioO⟩]
          else [⟨s.pins.swclkOe, false, false, s.pins.swdioO⟩, ⟨s.pins.swclkOe, true, false, s.pins.swdioO⟩]) n) ∧
  ∀ (s : State) (c : Command) (offers : List Command) (rest : List Nat),
    s.seq = .idle → s.busy = false → s.env.offers = c :: offers → s.env.resets = 1 :: rest →
    ∃ u, step s = .next u ∧ Abandoned { s with env := { s.env with offers := offers } } u [] 0

/-- An illegal command word raises ILLEGAL_COMMAND before any other check; apart from the latched operands only the response
changes (spec/60_exceptions.md R208). The model's choices in it: the offer is taken from a list (log 4), and two instants pass for
the reset schedule (log 6). -/
def Obligations.IllegalCommandChangesOnlyTheResponse : Prop :=
  ∀ (s : State) (c : Command) (rest : List Command),
    lands 2 s.env.resets = none → s.seq = .idle → s.busy = false → s.env.offers = c :: rest → c.legal = false →
    step s = .next { s with
      cmd := c, rsp := ⟨true, statusIllegalCommand, 0b000#3, 0x00000000#32⟩,
      env := { s.env with offers := rest, resets := elapse 2 s.env.resets } }

/-- NOT_INITIALISED (spec/60_exceptions.md R206): every command other than LINE_RESET (the seven whose rules list frames), when
`link_up` is 0, without wire activity. That the transient registers keep their values is the model's choice (log 9). -/
def Obligations.NotInitialisedBeforeLineReset : Prop :=
  ∀ (i : Instr) (s : State), listsFrames i = true → s.seq = .idle → s.linkUp = false →
    ∃ t, exec i s = .next t ∧ Ended i s t statusNotInitialised 0b000#3 0x00000000#32 ∧ SameFlags s t ∧
      Exchanged s t [] s.env.levels [] ∧ t.dp = s.dp

/-- NOT_POWERED (spec/60_exceptions.md R207): the memory commands, when `link_up` is 1 and `dap_ready` 0, without wire
activity. That the transient registers keep their values is the model's choice (log 9). -/
def Obligations.NotPoweredBeforePowerUp : Prop :=
  ∀ (i : Instr) (s : State), needsPower i = true → s.seq = .idle → s.linkUp = true → s.dapReady = false →
    ∃ t, exec i s = .next t ∧ Ended i s t statusNotPowered 0b000#3 0x00000000#32 ∧ SameFlags s t ∧
      Exchanged s t [] s.env.levels [] ∧ t.dp = s.dp

/-! ## The wire-codec commands -/

/-- LINE_RESET (spec/41_wire_codec.md R126, R127; spec/30_encoding.md R102): the 96 bit cycles, `link_up` 1, `dap_ready` 0, the
response OK; it runs whatever `link_up` is and reads no level. -/
def Obligations.LineResetRuns : Prop :=
  ∀ s : State, s.quiet → s.seq = .idle →
    ∃ t, exec .lineReset s = .next t ∧ Ended .lineReset s t statusOk 0b000#3 0x00000000#32 ∧
      Exchanged s t (lineResetTrace s.pins.swclkOe s.pins.swdioOe) s.env.levels [] ∧
      t.linkUp = true ∧ t.dapReady = false ∧ t.cache = s.cache ∧ t.pins = ⟨true, true, true, false⟩

/-- WIRE_READ (spec/41_wire_codec.md R138, R130, R132): one read frame, the word as the result; SWDIO is left in input mode. -/
def Obligations.WireReadReturnsTheWord : Prop :=
  ∀ (s : State) (apndp : Bool) (a : BitVec 2) (t i0 i1 : Bool) (d : Word) (rest : List Bool),
    s.quiet → s.seq = .idle → s.linkUp = true → s.env.levels = readLevels t d (parity32 d) i0 i1 ++ rest →
    ∃ u, exec (.wireRead apndp a) s = .next u ∧ Ended (.wireRead apndp a) s u statusOk ackOk d ∧ SameFlags s u ∧
      Exchanged s u (readTrace s.pins.swdioOe ⟨apndp, true, a⟩ t d (parity32 d) i0 i1) rest
        [completedFrame ⟨apndp, true, a⟩ d] ∧
      u.pins.swdioOe = false ∧ u.pins.swclkO = true

/-- PARITY_ERROR (spec/41_wire_codec.md R131; spec/60_exceptions.md R204): a received parity bit that is not that of the word,
detected after all 47 bit cycles; the response carries the word. -/
def Obligations.WireReadParityError : Prop :=
  ∀ (s : State) (apndp : Bool) (a : BitVec 2) (t p i0 i1 : Bool) (d : Word) (rest : List Bool),
    s.quiet → s.seq = .idle → s.linkUp = true → p ≠ parity32 d → s.env.levels = readLevels t d p i0 i1 ++ rest →
    ∃ u, exec (.wireRead apndp a) s = .next u ∧ Ended (.wireRead apndp a) s u statusParityError ackOk d ∧ SameFlags s u ∧
      Exchanged s u (readTrace s.pins.swdioOe ⟨apndp, true, a⟩ t d p i0 i1) rest
        [⟨Request.header ⟨apndp, true, a⟩, d, ackOk, .parityError⟩] ∧
      bitCycles (readTrace s.pins.swdioOe ⟨apndp, true, a⟩ t d p i0 i1) = 47

/-- ACK_FAULT (spec/41_wire_codec.md R129, R137; spec/60_exceptions.md R203): any ACK but 0b001 ends a raw command after 12 bit
cycles, with the raw ACK in the response and SWDIO in input mode. The word of a failed read's record, 0, is the model's choice
(logs 8, 12). -/
def Obligations.RawCommandAckFault : Prop :=
  ∀ (s : State) (apndp rnw : Bool) (a : BitVec 2) (d : Word) (t : Bool) (bad : BitVec 3) (rest : List Bool),
    s.quiet → s.seq = .idle → s.linkUp = true → bad ≠ ackOk → s.env.levels = ackLevels t bad ++ rest →
    ∃ u, exec (Request.rawCommand ⟨apndp, rnw, a⟩ d) s = .next u ∧
      Ended (Request.rawCommand ⟨apndp, rnw, a⟩ d) s u statusAckFault bad 0x00000000#32 ∧
      Exchanged s u (requestTrace s.pins.swdioOe ⟨apndp, rnw, a⟩ t bad) rest
        [⟨Request.header ⟨apndp, rnw, a⟩, if rnw then 0#32 else d, bad, .ackFault⟩] ∧
      u.linkUp = s.linkUp ∧ u.dapReady = s.dapReady ∧
      u.cache = startCache (Request.rawCommand ⟨apndp, rnw, a⟩ d) s.cache ∧ u.pins.swdioOe = false ∧ u.pins.swclkO = true

/-- WIRE_WRITE (spec/41_wire_codec.md R139, R134, R136): one write frame, no result; SWDIO is left driving 0. A raw SELECT write
invalidates the bank cache although its ACK is OK (spec/20_memory.md R82). -/
def Obligations.WireWriteSendsTheWord : Prop :=
  ∀ (s : State) (apndp : Bool) (a : BitVec 2) (d : Word) (t0 t1 : Bool) (rest : List Bool),
    s.quiet → s.seq = .idle → s.linkUp = true → s.env.levels = writeLevels t0 t1 ++ rest →
    ∃ u, exec (.wireWrite apndp a d) s = .next u ∧ Ended (.wireWrite apndp a d) s u statusOk ackOk 0x00000000#32 ∧
      Exchanged s u (writeTrace s.pins.swdioOe ⟨apndp, false, a⟩ d t0 t1) rest [completedFrame ⟨apndp, false, a⟩ d] ∧
      u.linkUp = s.linkUp ∧ u.dapReady = s.dapReady ∧
      u.cache = (if apndp = false ∧ a = 2#2 then { s.cache with valid := false } else s.cache) ∧
      u.pins.swdioOe = true ∧ u.pins.swdioO = false ∧ u.pins.swclkO = true

/-! ## The transaction commands -/

/-- SELECT_BANK on a cache hit (spec/42_transaction.md R161, R162; spec/20_memory.md R79): no frame, `rsp_ack` 0b000. That a cache
POWER_UP left valid hits too is the model's choice where R162's text and its pseudocode differ (log 21), and that the transient
registers keep their values is the model's choice (log 9). -/
def Obligations.SelectBankHitEmitsNothing : Prop :=
  ∀ (s : State) (ap bank : Byte),
    s.seq = .idle → s.linkUp = true → s.cache.valid = true → s.cache.ap = ap → s.cache.bank = bank &&& 0xF0#8 →
    ∃ u, exec (.selectBank ap bank) s = .next u ∧ Ended (.selectBank ap bank) s u statusOk 0b000#3 0x00000000#32 ∧
      SameFlags s u ∧ Exchanged s u [] s.env.levels [] ∧ u.dp = s.dp

/-- SELECT_BANK on a cache miss (spec/42_transaction.md R161, R162; spec/20_memory.md R80): one DP SELECT write, and the cache
holds the bank written. -/
def Obligations.SelectBankMissWritesSelect : Prop :=
  ∀ (s : State) (ap bank : Byte) (t0 t1 : Bool) (rest : List Bool),
    s.quiet → s.seq = .idle → s.linkUp = true →
    ¬(s.cache.valid = true ∧ s.cache.ap = ap ∧ s.cache.bank = bank &&& 0xF0#8) →
    s.env.levels = writeLevels t0 t1 ++ rest →
    ∃ u, exec (.selectBank ap bank) s = .next u ∧ Ended (.selectBank ap bank) s u statusOk ackOk 0x00000000#32 ∧
      Exchanged s u (writeTrace s.pins.swdioOe ⟨false, false, 2⟩ (selectValue ap bank) t0 t1) rest
        [completedFrame ⟨false, false, 2⟩ (selectValue ap bank)] ∧
      u.linkUp = s.linkUp ∧ u.dapReady = s.dapReady ∧ u.cache = ⟨true, ap, bank &&& 0xF0#8⟩

/-- A cache-miss SELECT write that fails its ACK invalidates the cache; `sel_ap` and `sel_bank` keep their values
(spec/20_memory.md R81; spec/60_exceptions.md R202). -/
def Obligations.SelectBankAckFaultInvalidates : Prop :=
  ∀ (s : State) (ap bank : Byte) (t : Bool) (bad : BitVec 3) (rest : List Bool),
    s.quiet → s.seq = .idle → s.linkUp = true → bad ≠ ackOk →
    ¬(s.cache.valid = true ∧ s.cache.ap = ap ∧ s.cache.bank = bank &&& 0xF0#8) →
    s.env.levels = ackLevels t bad ++ rest →
    ∃ u, exec (.selectBank ap bank) s = .next u ∧ Ended (.selectBank ap bank) s u statusAckFault bad 0x00000000#32 ∧
      Exchanged s u (requestTrace s.pins.swdioOe ⟨false, false, 2⟩ t bad) rest
        [⟨0xB1#8, selectValue ap bank, bad, .ackFault⟩] ∧
      u.linkUp = s.linkUp ∧ u.dapReady = s.dapReady ∧ u.cache = { s.cache with valid := false }

/-- POWER_UP (spec/42_transaction.md R163; spec/20_memory.md R83, R88, R89): five frames, whatever the cache held; IDCODE as the
result; `dap_ready` 1 and the cache valid for bank 0 of the MEM-AP. -/
def Obligations.PowerUpRuns : Prop :=
  ∀ (s : State) (t0 i0 i1 a0 a1 b0 b1 c0 c1 e0 e1 : Bool) (id : Word) (rest : List Bool),
    s.quiet → s.seq = .idle → s.linkUp = true →
    s.env.levels = readLevels t0 id (parity32 id) i0 i1 ++ (writeLevels a0 a1 ++ (writeLevels b0 b1 ++
      (writeLevels c0 c1 ++ (writeLevels e0 e1 ++ rest)))) →
    ∃ u, exec .powerUp s = .next u ∧ Ended .powerUp s u statusOk ackOk id ∧
      Exchanged s u
        (readTrace s.pins.swdioOe ⟨false, true, 0⟩ t0 id (parity32 id) i0 i1 ++
          (writeTrace false ⟨false, false, 1⟩ 0x50000000#32 a0 a1 ++ (writeTrace true ⟨false, false, 0⟩ 0x0000001E#32 b0 b1 ++
          (writeTrace true ⟨false, false, 2⟩ 0x00000000#32 c0 c1 ++ writeTrace true ⟨true, false, 0⟩ (cswWord s.par) e0 e1))))
        rest
        [completedFrame ⟨false, true, 0⟩ id, completedFrame ⟨false, false, 1⟩ 0x50000000#32,
          completedFrame ⟨false, false, 0⟩ 0x0000001E#32, completedFrame ⟨false, false, 2⟩ 0x00000000#32,
          completedFrame ⟨true, false, 0⟩ (cswWord s.par)] ∧
      u.linkUp = s.linkUp ∧ u.dapReady = true ∧ u.cache = ⟨true, 0x00#8, 0x00#8⟩

/-- POWER_UP whose CSW write fails: the cache is valid for bank 0 of the MEM-AP, but `dap_ready` is 0
(spec/42_transaction.md R163; spec/70_reset_and_hazards.md R238). -/
def Obligations.PowerUpCswFaultLeavesNotReady : Prop :=
  ∀ (s : State) (t0 i0 i1 a0 a1 b0 b1 c0 c1 e0 : Bool) (id : Word) (bad : BitVec 3) (rest : List Bool),
    s.quiet → s.seq = .idle → s.linkUp = true → bad ≠ ackOk →
    s.env.levels = readLevels t0 id (parity32 id) i0 i1 ++ (writeLevels a0 a1 ++ (writeLevels b0 b1 ++
      (writeLevels c0 c1 ++ (ackLevels e0 bad ++ rest)))) →
    ∃ u, exec .powerUp s = .next u ∧ Ended .powerUp s u statusAckFault bad 0x00000000#32 ∧ u.env.levels = rest ∧
      u.linkUp = s.linkUp ∧ u.dapReady = false ∧ u.cache = ⟨true, 0x00#8, 0x00#8⟩

/-- MEM_READ on a cache hit (spec/42_transaction.md R164, R165): TAR, DRW discarded, RDBUFF; the RDBUFF word is the result. -/
def Obligations.MemReadOnHit : Prop :=
  ∀ (s : State) (addr : Word) (a0 a1 b0 b1 b2 c0 c1 c2 : Bool) (old v : Word) (rest : List Bool),
    s.quiet → s.seq = .idle → s.linkUp = true → s.dapReady = true → s.cache.hit 0x00#8 0x00#8 = true →
    s.env.levels = writeLevels a0 a1 ++ (readLevels b0 old (parity32 old) b1 b2 ++
      (readLevels c0 v (parity32 v) c1 c2 ++ rest)) →
    ∃ u, exec (.memRead addr) s = .next u ∧ Ended (.memRead addr) s u statusOk ackOk v ∧ SameFlags s u ∧
      Exchanged s u
        (writeTrace s.pins.swdioOe ⟨true, false, 1⟩ addr a0 a1 ++
          (readTrace true ⟨true, true, 3⟩ b0 old (parity32 old) b1 b2 ++
            readTrace false ⟨false, true, 3⟩ c0 v (parity32 v) c1 c2))
        rest
        [completedFrame ⟨true, false, 1⟩ addr, completedFrame ⟨true, true, 3⟩ old, completedFrame ⟨false, true, 3⟩ v]

/-- MEM_READ on a cache miss (spec/42_transaction.md R164, R165): the bank is selected first. -/
def Obligations.MemReadOnMiss : Prop :=
  ∀ (s : State) (addr : Word) (e0 e1 a0 a1 b0 b1 b2 c0 c1 c2 : Bool) (old v : Word) (rest : List Bool),
    s.quiet → s.seq = .idle → s.linkUp = true → s.dapReady = true → s.cache.hit 0x00#8 0x00#8 = false →
    s.env.levels = writeLevels e0 e1 ++ (writeLevels a0 a1 ++ (readLevels b0 old (parity32 old) b1 b2 ++
      (readLevels c0 v (parity32 v) c1 c2 ++ rest))) →
    ∃ u, exec (.memRead addr) s = .next u ∧ Ended (.memRead addr) s u statusOk ackOk v ∧
      Exchanged s u
        (writeTrace s.pins.swdioOe ⟨false, false, 2⟩ 0x00000000#32 e0 e1 ++ (writeTrace true ⟨true, false, 1⟩ addr a0 a1 ++
          (readTrace true ⟨true, true, 3⟩ b0 old (parity32 old) b1 b2 ++
            readTrace false ⟨false, true, 3⟩ c0 v (parity32 v) c1 c2)))
        rest
        [completedFrame ⟨false, false, 2⟩ 0x00000000#32, completedFrame ⟨true, false, 1⟩ addr,
          completedFrame ⟨true, true, 3⟩ old, completedFrame ⟨false, true, 3⟩ v] ∧
      u.linkUp = s.linkUp ∧ u.dapReady = s.dapReady ∧ u.cache = ⟨true, 0x00#8, 0x00#8⟩

/-- The discarded DRW read of MEM_READ has its parity checked like any other (spec/42_transaction.md R165): the command ends with
PARITY_ERROR and the word of that read, and RDBUFF is not read. -/
def Obligations.MemReadChecksTheDiscardedRead : Prop :=
  ∀ (s : State) (addr : Word) (a0 a1 b0 p b1 b2 : Bool) (old : Word) (rest : List Bool),
    s.quiet → s.seq = .idle → s.linkUp = true → s.dapReady = true → s.cache.hit 0x00#8 0x00#8 = true → p ≠ parity32 old →
    s.env.levels = writeLevels a0 a1 ++ (readLevels b0 old p b1 b2 ++ rest) →
    ∃ u, exec (.memRead addr) s = .next u ∧ Ended (.memRead addr) s u statusParityError ackOk old ∧ SameFlags s u ∧
      Exchanged s u
        (writeTrace s.pins.swdioOe ⟨true, false, 1⟩ addr a0 a1 ++ readTrace true ⟨true, true, 3⟩ b0 old p b1 b2) rest
        [completedFrame ⟨true, false, 1⟩ addr, ⟨0x9F#8, old, ackOk, .parityError⟩]

/-- MEM_WRITE on a cache hit (spec/42_transaction.md R164, R166): TAR, DRW. -/
def Obligations.MemWriteOnHit : Prop :=
  ∀ (s : State) (addr d : Word) (a0 a1 b0 b1 : Bool) (rest : List Bool),
    s.quiet → s.seq = .idle → s.linkUp = true → s.dapReady = true → s.cache.hit 0x00#8 0x00#8 = true →
    s.env.levels = writeLevels a0 a1 ++ (writeLevels b0 b1 ++ rest) →
    ∃ u, exec (.memWrite addr d) s = .next u ∧ Ended (.memWrite addr d) s u statusOk ackOk 0x00000000#32 ∧ SameFlags s u ∧
      Exchanged s u
        (writeTrace s.pins.swdioOe ⟨true, false, 1⟩ addr a0 a1 ++ writeTrace true ⟨true, false, 3⟩ d b0 b1) rest
        [completedFrame ⟨true, false, 1⟩ addr, completedFrame ⟨true, false, 3⟩ d]

/-- MEM_WRITE on a cache miss (spec/42_transaction.md R164, R166): the bank is selected first. -/
def Obligations.MemWriteOnMiss : Prop :=
  ∀ (s : State) (addr d : Word) (e0 e1 a0 a1 b0 b1 : Bool) (rest : List Bool),
    s.quiet → s.seq = .idle → s.linkUp = true → s.dapReady = true → s.cache.hit 0x00#8 0x00#8 = false →
    s.env.levels = writeLevels e0 e1 ++ (writeLevels a0 a1 ++ (writeLevels b0 b1 ++ rest)) →
    ∃ u, exec (.memWrite addr d) s = .next u ∧ Ended (.memWrite addr d) s u statusOk ackOk 0x00000000#32 ∧
      Exchanged s u
        (writeTrace s.pins.swdioOe ⟨false, false, 2⟩ 0x00000000#32 e0 e1 ++
          (writeTrace true ⟨true, false, 1⟩ addr a0 a1 ++ writeTrace true ⟨true, false, 3⟩ d b0 b1))
        rest
        [completedFrame ⟨false, false, 2⟩ 0x00000000#32, completedFrame ⟨true, false, 1⟩ addr,
          completedFrame ⟨true, false, 3⟩ d] ∧
      u.linkUp = s.linkUp ∧ u.dapReady = s.dapReady ∧ u.cache = ⟨true, 0x00#8, 0x00#8⟩

/-- MEM_WRITE_HALF on a cache hit (spec/42_transaction.md R164, R167): CSW to halfword mode, TAR, the halfword in its DRW lane, CSW
back to word mode. -/
def Obligations.MemWriteHalfOnHit : Prop :=
  ∀ (s : State) (addr : Word) (h : BitVec 16) (a0 a1 b0 b1 c0 c1 d0 d1 : Bool) (rest : List Bool),
    s.quiet → s.seq = .idle → s.linkUp = true → s.dapReady = true → s.cache.hit 0x00#8 0x00#8 = true →
    s.env.levels = writeLevels a0 a1 ++ (writeLevels b0 b1 ++ (writeLevels c0 c1 ++ (writeLevels d0 d1 ++ rest))) →
    ∃ u, exec (.memWriteHalf addr h) s = .next u ∧ Ended (.memWriteHalf addr h) s u statusOk ackOk 0x00000000#32 ∧
      SameFlags s u ∧
      Exchanged s u
        (writeTrace s.pins.swdioOe ⟨true, false, 0⟩ (cswHalf s.par) a0 a1 ++ (writeTrace true ⟨true, false, 1⟩ addr b0 b1 ++
          (writeTrace true ⟨true, false, 3⟩ (halfLane addr h) c0 c1 ++ writeTrace true ⟨true, false, 0⟩ (cswWord s.par) d0 d1)))
        rest
        [completedFrame ⟨true, false, 0⟩ (cswHalf s.par), completedFrame ⟨true, false, 1⟩ addr,
          completedFrame ⟨true, false, 3⟩ (halfLane addr h), completedFrame ⟨true, false, 0⟩ (cswWord s.par)]

/-- MEM_WRITE_HALF on a cache miss (spec/42_transaction.md R164, R167): the bank is selected first. -/
def Obligations.MemWriteHalfOnMiss : Prop :=
  ∀ (s : State) (addr : Word) (h : BitVec 16) (e0 e1 a0 a1 b0 b1 c0 c1 d0 d1 : Bool) (rest : List Bool),
    s.quiet → s.seq = .idle → s.linkUp = true → s.dapReady = true → s.cache.hit 0x00#8 0x00#8 = false →
    s.env.levels = writeLevels e0 e1 ++ (writeLevels a0 a1 ++ (writeLevels b0 b1 ++ (writeLevels c0 c1 ++
      (writeLevels d0 d1 ++ rest)))) →
    ∃ u, exec (.memWriteHalf addr h) s = .next u ∧ Ended (.memWriteHalf addr h) s u statusOk ackOk 0x00000000#32 ∧
      Exchanged s u
        (writeTrace s.pins.swdioOe ⟨false, false, 2⟩ 0x00000000#32 e0 e1 ++
          (writeTrace true ⟨true, false, 0⟩ (cswHalf s.par) a0 a1 ++ (writeTrace true ⟨true, false, 1⟩ addr b0 b1 ++
          (writeTrace true ⟨true, false, 3⟩ (halfLane addr h) c0 c1 ++ writeTrace true ⟨true, false, 0⟩ (cswWord s.par) d0 d1))))
        rest
        [completedFrame ⟨false, false, 2⟩ 0x00000000#32, completedFrame ⟨true, false, 0⟩ (cswHalf s.par),
          completedFrame ⟨true, false, 1⟩ addr, completedFrame ⟨true, false, 3⟩ (halfLane addr h),
          completedFrame ⟨true, false, 0⟩ (cswWord s.par)] ∧
      u.linkUp = s.linkUp ∧ u.dapReady = s.dapReady ∧ u.cache = ⟨true, 0x00#8, 0x00#8⟩

/-- MEM_WRITE_HALF whose DRW write fails does not restore CSW: the last CSW written is the halfword mode
(spec/42_transaction.md R167; spec/70_reset_and_hazards.md R235). -/
def Obligations.MemWriteHalfFaultLeavesHalfwordMode : Prop :=
  ∀ (s : State) (addr : Word) (h : BitVec 16) (a0 a1 b0 b1 c0 : Bool) (bad : BitVec 3) (rest : List Bool),
    s.quiet → s.seq = .idle → s.linkUp = true → s.dapReady = true → s.cache.hit 0x00#8 0x00#8 = true → bad ≠ ackOk →
    s.env.levels = writeLevels a0 a1 ++ (writeLevels b0 b1 ++ (ackLevels c0 bad ++ rest)) →
    ∃ u, exec (.memWriteHalf addr h) s = .next u ∧ Ended (.memWriteHalf addr h) s u statusAckFault bad 0x00000000#32 ∧
      SameFlags s u ∧ u.env.levels = rest ∧
      u.obs.frames = s.obs.frames ++ [completedFrame ⟨true, false, 0⟩ (cswHalf s.par), completedFrame ⟨true, false, 1⟩ addr,
        ⟨0xBB#8, halfLane addr h, bad, .ackFault⟩]

/-- Every command that lists frames does exactly what its list says, one frame at a time (spec/42_transaction.md R160, R161;
spec/41_wire_codec.md R138 to R140): for every list of answers, with failures at any frame, the bit-serial machine shows the
trace, ends the frames, and leaves the cache, the flags and the response of the frame-level report. The word of a failed read's
record, 0, is the model's choice (logs 8, 12), and so is it that a cache POWER_UP left valid hits (log 21). -/
def Obligations.CommandsFollowTheirFrameLists : Prop :=
  ∀ (s : State) (i : Instr) (as : List Answer) (rest : List Bool),
    s.quiet → s.seq = .idle → listsFrames i = true → s.linkUp = true → (needsPower i = true → s.dapReady = true) →
    Answered (frames s.par i) as (startCache i s.cache) → s.env.levels = as.flatMap Answer.levels ++ rest →
    let r := report (frames s.par i) as s.pins.swdioOe (startCache i s.cache) 0#32 0b000#3
    ∃ u, exec i s = .next u ∧ Ended i s u r.rsp.status r.rsp.ack r.rsp.data ∧ Exchanged s u r.trace rest r.records ∧
      u.cache = r.cache ∧ u.linkUp = s.linkUp ∧
      u.dapReady = (if i = .powerUp then decide (r.rsp.status = statusOk) else s.dapReady)

/-- A SELECT_BANK or memory command that completes emits one SELECT frame on a miss and none on a hit (spec/42_transaction.md R168;
spec/20_memory.md R79). That a cache POWER_UP left valid hits is the model's choice (log 21). -/
def Obligations.SelectFramesOnlyOnMiss : Prop :=
  ∀ (s : State) (i : Instr) (ap bank : Byte) (as : List Answer) (rest : List Bool),
    s.quiet → s.seq = .idle → s.linkUp = true → (needsPower i = true → s.dapReady = true) →
    i = .selectBank ap bank ∨ (needsPower i = true ∧ ap = 0x00#8 ∧ bank = 0x00#8) →
    Answered (frames s.par i) as s.cache → s.env.levels = as.flatMap Answer.levels ++ rest →
    ∃ u, exec i s = .next u ∧
      (u.rsp.status = statusOk →
        selectCount u = selectCount s + (if s.cache.hit ap bank then 0 else 1) ∧ u.cache.hit ap bank = true)

/-! ## The request headers -/

/-- On an idle block a request header is the raw codec command that carries it: the model's choice, log 10 (its ground is
spec/30_encoding.md R90, by which a header reaches the wire only inside a command). -/
def Obligations.RequestOnIdleBlockIsTheRawCommand : Prop :=
  ∀ (s : State) (i : Instr) (r : Request) (d : Word), s.seq = .idle → i.request = some (r, d) →
    exec i s = exec (r.rawCommand d) s

/-- Each read header completes on an idle block with the link up: one read frame with its header, the word as the result
(spec/41_wire_codec.md R130, R138; log 10). -/
def Obligations.ReadRequestsComplete : Prop :=
  ∀ (s : State) (i : Instr) (r : Request) (t i0 i1 : Bool) (d : Word) (rest : List Bool),
    i ∈ [.reqDpReadIdcode, .reqDpReadCtrlstat, .reqDpRead08, .reqDpReadRdbuff, .reqApReadCsw, .reqApReadTar, .reqApRead08,
      .reqApReadDrw] →
    i.request = some (r, 0#32) → s.quiet → s.seq = .idle → s.linkUp = true →
    s.env.levels = readLevels t d (parity32 d) i0 i1 ++ rest →
    ∃ u, exec i s = .next u ∧ Ended (.wireRead r.apndp r.a) s u statusOk ackOk d ∧ SameFlags s u ∧
      Exchanged s u (readTrace s.pins.swdioOe r t d (parity32 d) i0 i1) rest [completedFrame r d]

/-- Each write header completes on an idle block with the link up: one write frame with its header and its word
(spec/41_wire_codec.md R134, R139; log 10). -/
def Obligations.WriteRequestsComplete : Prop :=
  ∀ (s : State) (i : Instr) (r : Request) (d : Word) (t0 t1 : Bool) (rest : List Bool),
    i ∈ [.reqDpWriteAbort d, .reqDpWriteCtrlstat d, .reqDpWriteSelect d, .reqDpWrite0C d, .reqApWriteCsw d, .reqApWriteTar d,
      .reqApWrite08 d, .reqApWriteDrw d] →
    i.request = some (r, d) → s.quiet → s.seq = .idle → s.linkUp = true → s.env.levels = writeLevels t0 t1 ++ rest →
    ∃ u, exec i s = .next u ∧ Ended (.wireWrite r.apndp r.a d) s u statusOk ackOk 0x00000000#32 ∧
      Exchanged s u (writeTrace s.pins.swdioOe r d t0 t1) rest [completedFrame r d] ∧
      u.linkUp = s.linkUp ∧ u.dapReady = s.dapReady ∧
      u.cache = (if r = selectRequest then { s.cache with valid := false } else s.cache)

/-- A read header where its frame stands in a command in progress: the frame is clocked, and the command stands before its next
frame or has completed (spec/41_wire_codec.md R130; spec/42_transaction.md R160; spec/60_exceptions.md R201). The model's choices
in it: exec of a header where its frame stands (log 10), the result latch (log 2), and the 0 in `tx_shift` before a read (log
12). -/
def Obligations.ReadFrameOfACommand : Prop :=
  ∀ (s : State) (i : Instr) (k : Nat) (apndp : Bool) (a : BitVec 2) (keep : Bool) (t i0 i1 : Bool) (d : Word)
    (rest : List Bool),
    s.quiet → s.seq = .pos k .header 0 → s.frames[k]? = some (.read apndp a keep) →
    i.request = some (⟨apndp, true, a⟩, 0#32) → s.env.levels = readLevels t d (parity32 d) i0 i1 ++ rest →
    ∃ u, exec i s = .next u ∧
      Exchanged s u (readTrace s.pins.swdioOe ⟨apndp, true, a⟩ t d (parity32 d) i0 i1) rest
        [completedFrame ⟨apndp, true, a⟩ d] ∧
      SameOutside s u ∧ u.cmd = s.cmd ∧ u.linkUp = s.linkUp ∧ u.cache = s.cache ∧
      u.result = (if keep then d else s.result) ∧
      (s.frames[k + 1]? = none → u.rsp = ⟨true, statusOk, ackOk, u.result⟩ ∧ u.busy = false ∧ u.seq = .idle ∧
        u.dapReady = (decide (s.current = some .powerUp) || s.dapReady)) ∧
      (∀ op, s.frames[k + 1]? = some op → op.hits s.cache = false →
        u.seq = .pos (k + 1) .header 0 ∧ u.dp.hdr = op.request.header ∧ u.dp.tx = op.data ∧ u.busy = s.busy ∧
          u.rsp = s.rsp ∧ u.dapReady = s.dapReady)

/-- A write header where its frame stands in a command in progress, a bank selection's SELECT write among them
(spec/41_wire_codec.md R134; spec/42_transaction.md R160, R161; spec/20_memory.md R80); a raw SELECT write invalidates the cache
(R82). The model's choices in it: exec of a header where its frame stands (log 10), the result latch (log 2), and the 0 in
`tx_shift` before a read (log 12). -/
def Obligations.WriteFrameOfACommand : Prop :=
  ∀ (s : State) (i : Instr) (k : Nat) (op : FrameOp) (t0 t1 : Bool) (rest : List Bool),
    s.quiet → s.seq = .pos k .header 0 → s.frames[k]? = some op → op.request.rnw = false →
    i.request = some (op.request, op.data) → s.env.levels = writeLevels t0 t1 ++ rest →
    ∃ u, exec i s = .next u ∧
      Exchanged s u (writeTrace s.pins.swdioOe op.request op.data t0 t1) rest [completedFrame op.request op.data] ∧
      SameOutside s u ∧ u.cmd = s.cmd ∧ u.linkUp = s.linkUp ∧ u.cache = op.cacheOnOk s.cache ∧ u.result = s.result ∧
      (s.frames[k + 1]? = none → u.rsp = ⟨true, statusOk, ackOk, u.result⟩ ∧ u.busy = false ∧ u.seq = .idle ∧
        u.dapReady = (decide (s.current = some .powerUp) || s.dapReady)) ∧
      (∀ op', s.frames[k + 1]? = some op' → op'.hits u.cache = false →
        u.seq = .pos (k + 1) .header 0 ∧ u.dp.hdr = op'.request.header ∧ u.dp.tx = op'.data ∧ u.busy = s.busy ∧
          u.rsp = s.rsp ∧ u.dapReady = s.dapReady)

/-- A frame of a command in progress that fails its ACK ends the command, whichever frame it is
(spec/60_exceptions.md R202, R203; spec/20_memory.md R81, R82). The model's choices in it: exec of a header where its frame stands
(log 10), and the word of a failed read's record, 0 (logs 8, 12). -/
def Obligations.FailedAckEndsTheCommand : Prop :=
  ∀ (s : State) (i : Instr) (k : Nat) (op : FrameOp) (t : Bool) (bad : BitVec 3) (rest : List Bool),
    s.quiet → s.seq = .pos k .header 0 → s.frames[k]? = some op → i.request = some (op.request, op.data) → bad ≠ ackOk →
    s.env.levels = ackLevels t bad ++ rest →
    ∃ u, exec i s = .next u ∧
      Exchanged s u (requestTrace s.pins.swdioOe op.request t bad) rest
        [⟨op.request.header, if op.request.rnw then 0#32 else op.data, bad, .ackFault⟩] ∧
      SameOutside s u ∧ u.cmd = s.cmd ∧ u.linkUp = s.linkUp ∧ u.dapReady = s.dapReady ∧
      u.cache = op.cacheOnFault s.cache ∧ u.rsp = ⟨true, statusAckFault, bad, 0x00000000#32⟩ ∧ u.busy = false ∧
      u.seq = .idle

/-! ## Rules of the whole machine -/

/-- A failure of the channel ends the command at any wire event, be it the first of its tick or the bit cycle behind a mode
change, with TRANSPORT_ERROR; `link_up` and `dap_ready` are cleared, and the cache is invalidated if the frame was a cache-miss
SELECT write (spec/60_exceptions.md R202, R205). The model's choices in it: how the moment is scheduled, and that LinkFail stands
in the place of the failing event, no half period of which is shown (log 7). -/
def Obligations.ChannelFailureEndsTheCommand : Prop :=
  ∀ s : State, due s.env.resets = false → due s.env.linkFaults = true → s.par.phyCanFail = true →
    ∃ u, Failed s u ∧ (∀ k, s.event k = .off u) ∧ (∀ b, s.driveBit b = .off u) ∧ (∀ k, s.sampleBit k = .off u) ∧
      (∀ pin out, s.pins.isOut pin ≠ out → s.setMode pin out = .off u) ∧
      (s.seq ≠ .idle → s.tickFlow = .off u ∧ State.runFrame frameFuel s = u)

/-- Where the channel cannot fail, no instruction ends with TRANSPORT_ERROR (spec/60_exceptions.md R205). -/
def Obligations.NoTransportErrorUnlessTheChannelCanFail : Prop :=
  ∀ (s t : State) (i : Instr), s.seq = .idle → s.par.phyCanFail = false → exec i s = .next t →
    t.rsp.status ≠ statusTransportError

/-- No write frame raises PARITY_ERROR (spec/60_exceptions.md R204; spec/41_wire_codec.md R135): the commands without a read never
end with it. -/
def Obligations.WritesNeverRaiseParityError : Prop :=
  ∀ (s t : State) (i : Instr), s.seq = .idle →
    (i = .lineReset ∨ (∃ p a d, i = .wireWrite p a d) ∨ (∃ ap bank, i = .selectBank ap bank) ∨
      (∃ addr d, i = .memWrite addr d) ∨ (∃ addr h, i = .memWriteHalf addr h) ∨
      ∃ r d, i.request = some (r, d) ∧ r.rnw = false) →
    exec i s = .next t → t.rsp.status ≠ statusParityError

/-- No instruction is stuck: from an idle block every one ends with the block idle, and with a response unless block reset
abandoned it (spec/10_state.md R39, R42; spec/60_exceptions.md R211; spec/70_reset_and_hazards.md R230). -/
def Obligations.EveryInstructionEnds : Prop :=
  ∀ (s : State) (i : Instr), s.seq = .idle →
    ∃ t, exec i s = .next t ∧ t.seq = .idle ∧ t.busy = false ∧
      (t.rsp.valid = true ∨ t.rsp = ⟨false, 0#4, 0b000#3, 0x00000000#32⟩)

/-- `link_up` is written only by LINE_RESET, by a transport error and by block reset (spec/10_state.md R35). -/
def Obligations.LinkUpIsWrittenOnlyByTheRule : Prop :=
  ∀ (s t : State) (i : Instr), s.seq = .idle → exec i s = .next t → t.linkUp ≠ s.linkUp →
    (t.linkUp = true ∧ i = .lineReset ∧ t.rsp.status = statusOk) ∨
    (t.linkUp = false ∧ (t.rsp.status = statusTransportError ∨ t.rsp.valid = false))

/-- `dap_ready` is set only at the successful end of POWER_UP and cleared only by POWER_UP, LINE_RESET, a transport error and block
reset (spec/10_state.md R36). -/
def Obligations.DapReadyIsWrittenOnlyByTheRule : Prop :=
  ∀ (s t : State) (i : Instr), s.seq = .idle → exec i s = .next t → t.dapReady ≠ s.dapReady →
    (t.dapReady = true ∧ i = .powerUp ∧ t.rsp.valid = true ∧ t.rsp.status = statusOk) ∨
    (t.dapReady = false ∧
      (i = .powerUp ∨ i = .lineReset ∨ t.rsp.status = statusTransportError ∨ t.rsp.valid = false))

/-- The bank cache is written only by the commands that select a bank, by POWER_UP, by a raw SELECT write and by block reset
(spec/20_memory.md R79 to R84). Of the request headers on an idle block, which are raw commands by the model's choice (log 10),
only the DP SELECT write writes it. -/
def Obligations.BankCacheIsWrittenOnlyByTheRule : Prop :=
  ∀ (s t : State) (i : Instr), s.seq = .idle → exec i s = .next t → t.cache ≠ s.cache →
    (∃ ap bank, i = .selectBank ap bank) ∨ needsPower i = true ∨ forgetsBank i = true ∨ (∃ d, i = .reqDpWriteSelect d) ∨
      t.rsp.valid = false

/-- A response in force has one of the forms of spec/60_exceptions.md R200 to R202, and a step keeps it so. -/
def Obligations.StepKeepsTheResponseForm : Prop :=
  ∀ s t : State, (s.rsp.valid = true → ResponseShape s.rsp) → step s = .next t → t.rsp.valid = true → ResponseShape t.rsp

/-- The invariant of the block is kept by every step, from every state that has it: `busy` and the sequencer agree
(spec/10_state.md R39, R42), the cached bank is a multiple of 0x10 (R37), a valid cache holds the last SELECT written (R38), a
powered-up block has its link up (R35, R36), SWCLK rests driven high (spec/41_wire_codec.md R125), and the frame in progress is
the one its command lists. The model's choices in it: `tx_shift` is 0 in a read frame (log 12), and the half-period timer is 0
between bit cycles (log 15). -/
def Obligations.StepKeepsTheInvariant : Prop := ∀ s t : State, Inv s → step s = .next t → Inv t

/-- The state after reset has the invariant (spec/10_state.md R48; the parts about no register whose reset value the model
chose). -/
def Obligations.ResetHasTheInvariant : Prop := Inv State.reset
end

