-- ==== Sys2Proof/Laws/Bits.lean ====
section
/-!
SUPPORT. Laws of the bit lists of a frame: serialise, deserialise, setBit, parity.
-/
namespace Sys2Proof.Machine

@[simp] theorem length_serialise {w : Nat} (v : BitVec w) : (serialise v).length = w := by simp [serialise]

@[simp] theorem getElem_serialise {w : Nat} (v : BitVec w) (i : Nat) (h : i < (serialise v).length) :
    (serialise v)[i] = v.getLsbD i := by simp [serialise]

theorem serialise_eq_range' {w : Nat} (v : BitVec w) : serialise v = (List.range' 0 w).map v.getLsbD := by
  rw [serialise, List.range_eq_range']

theorem getLsbD_setBit {w : Nat} (v : BitVec w) {n : Nat} (hn : n < w) (b : Bool) (i : Nat) :
    (setBit v n b).getLsbD i = if i = n then b else v.getLsbD i := by
  unfold setBit
  by_cases hi : i < w
  · by_cases h : i = n
    · subst h; cases b <;> simp [hi]
    · cases b
      · rw [if_neg (by simp), if_neg h, BitVec.getLsbD_and, BitVec.getLsbD_not, BitVec.getLsbD_shiftLeft]
        by_cases hlt : i < n
        · simp [hi, hlt]
        · have : i - n ≠ 0 := by omega
          simp [hi, hlt, this]
      · rw [if_pos rfl, if_neg h, BitVec.getLsbD_or, BitVec.getLsbD_shiftLeft]
        by_cases hlt : i < n
        · simp [hlt]
        · have : i - n ≠ 0 := by omega
          simp [hlt, this]
  · have h : i ≠ n := by omega
    rw [if_neg h, BitVec.getLsbD_of_ge _ _ (by omega), BitVec.getLsbD_of_ge _ _ (by omega)]

theorem getLsbD_setBits {w : Nat} (bs : List Bool) (v : BitVec w) (n i : Nat) (h : n + bs.length ≤ w) :
    (setBits v n bs).getLsbD i = if n ≤ i ∧ i < n + bs.length then bs.getD (i - n) false else v.getLsbD i := by
  induction bs generalizing v n with
  | nil => simp [setBits]; omega
  | cons b bs ih =>
    simp only [List.length_cons] at h
    rw [setBits, ih _ _ (by omega), getLsbD_setBit v (by omega)]
    by_cases h1 : i = n
    · subst h1; simp
    · by_cases h2 : n + 1 ≤ i ∧ i < n + 1 + bs.length
      · have h3 : n ≤ i ∧ i < n + (b :: bs).length := by simp; omega
        rw [if_pos h2, if_pos h3]
        have : i - n = (i - (n + 1)) + 1 := by omega
        rw [this, List.getD_cons_succ]
      · have h3 : ¬(n ≤ i ∧ i < n + (b :: bs).length) := by simp; omega
        rw [if_neg h2, if_neg h3, if_neg h1]

/-- Receiving all the bits of a value gives the value, whatever the register held. -/
theorem setBits_serialise {w : Nat} (v u : BitVec w) : setBits u 0 (serialise v) = v := by
  apply BitVec.eq_of_getLsbD_eq
  intro i hi
  rw [getLsbD_setBits _ _ _ _ (by simp)]
  simp [hi, List.getD_eq_getElem?_getD, serialise]

theorem xorAll_cons (b : Bool) (bs : List Bool) : xorAll (b :: bs) = (b ^^ xorAll bs) := by
  have h : ∀ (bs : List Bool) (a : Bool), bs.foldl Bool.xor a = (a ^^ bs.foldl Bool.xor false) := by
    intro bs
    induction bs with
    | nil => intro a; cases a <;> rfl
    | cons c bs ih =>
      intro a
      rw [List.foldl_cons, ih, List.foldl_cons, ih (Bool.xor false c)]
      cases a <;> cases c <;> simp
  rw [xorAll, List.foldl_cons, h, xorAll]
  simp

/-- The cache-hit test in full (spec/20_memory.md R79). -/
theorem Cache.hit_iff (c : Cache) (ap bank : Byte) :
    c.hit ap bank = true ↔ c.valid = true ∧ c.ap = ap ∧ c.bank = bank &&& 0xF0#8 := by
  rw [Cache.hit, Bool.and_eq_true, Bool.and_eq_true, decide_eq_true_iff, decide_eq_true_iff, and_assoc, bankBits]

@[simp] theorem bankBits_bankBits (b : Byte) : bankBits (bankBits b) = bankBits b := by
  unfold bankBits
  rw [BitVec.and_assoc]
  rfl

end Sys2Proof.Machine
end

