-- ==== Sys2Proof/Laws/Encoding.lean ====
section
/-!
SUPPORT. What a command's triple decodes to.
-/
namespace Sys2Proof

/-- A masked comparison that another low nibble settles. -/
theorem masked_ne {w m n k : Word} (h : w &&& 0xF#32 = n) (hm : m &&& 0xF#32 = 0xF#32) (hk : k &&& 0xF#32 = k)
    (hn : k ≠ n) : ¬(w &&& m = k) := by
  intro e
  have := congrArg (· &&& 0xF#32) e
  simp only [BitVec.and_assoc, hm, h, hk] at this
  exact hn this.symm

theorem decodeCommand_wireWrite {w : Word} (h : w &&& 0xFFFFFF8F#32 = 0x00000003#32) (a d : Word) :
    decodeCommand ⟨w, a, d⟩ = some (.wireWrite (w.getLsbD 4) (w.extractLsb' 5 2) d) := by
  have h1 : w ≠ 1#32 := by rintro rfl; simp at h
  have h2 : ¬(w &&& 0xFFFFFF8F#32 = 0x00000002#32) := by rw [h]; decide
  simp only [decodeCommand, if_neg h1, if_neg h2, if_pos h]

theorem decodeCommand_selectBank {w : Word} (h : w &&& 0xFF0000FF#32 = 0x00000004#32) (a d : Word) :
    decodeCommand ⟨w, a, d⟩ = some (.selectBank (w.extractLsb' 16 8) (w.extractLsb' 8 8)) := by
  have hop : w &&& 0xF#32 = 4#32 := by
    have := congrArg (· &&& 0xF#32) h
    rw [BitVec.and_assoc] at this
    exact this
  have h1 : w ≠ 1#32 := by rintro rfl; simp at h
  have h2 := masked_ne (m := 0xFFFFFF8F#32) (k := 2#32) hop rfl rfl (by decide)
  have h3 := masked_ne (m := 0xFFFFFF8F#32) (k := 3#32) hop rfl rfl (by decide)
  simp only [decodeCommand, if_neg h1, if_neg h2, if_neg h3, if_pos h]

/-- The triple a command is encoded as decodes to it (spec/30_encoding.md R94, R108). -/
theorem decodeCommand_command (i : Instr) (h : i.request = none) : decodeCommand i.command = some i := by
  cases i with
  | lineReset => rfl
  | wireRead p a => revert p a; decide
  | wireWrite p a d =>
    have key : ∀ (p : Bool) (a : BitVec 2), (0x3#32 ||| registerFields p a) &&& 0xFFFFFF8F#32 = 0x00000003#32 ∧
        (0x3#32 ||| registerFields p a).getLsbD 4 = p ∧ (0x3#32 ||| registerFields p a).extractLsb' 5 2 = a := by decide
    obtain ⟨h1, h2, h3⟩ := key p a
    have := decodeCommand_wireWrite h1 0 d
    rw [h2, h3] at this
    exact this
  | selectBank ap bank =>
    obtain ⟨w, hw⟩ : ∃ w : Word, w = 0x4#32 ||| (bank.setWidth 32 <<< 8) ||| (ap.setWidth 32 <<< 16) := ⟨_, rfl⟩
    have h2 : w &&& 0xFF0000FF#32 = 4#32 := by
      subst hw; apply BitVec.eq_of_getLsbD_eq; intro i hi; interval_cases i <;> simp
    have h3 : w.extractLsb' 16 8 = ap := by
      subst hw; apply BitVec.eq_of_getLsbD_eq; intro i hi; interval_cases i <;> simp
    have h4 : w.extractLsb' 8 8 = bank := by
      subst hw; apply BitVec.eq_of_getLsbD_eq; intro i hi; interval_cases i <;> simp
    have := decodeCommand_selectBank h2 0 0
    rw [h3, h4] at this
    simpa only [Instr.command, hw] using this
  | powerUp => rfl
  | memRead a => simp [decodeCommand, Instr.command]
  | memWrite a d => simp [decodeCommand, Instr.command]
  | memWriteHalf a d =>
    have : BitVec.extractLsb' 0 16 (BitVec.setWidth 32 d) = d := by
      apply BitVec.eq_of_getLsbD_eq; intro i hi; interval_cases i <;> simp
    simp [decodeCommand, Instr.command, this]
  | _ => simp [Instr.request] at h

end Sys2Proof
end

