-- ==== Sys2Proof/Laws/State.lean ====
section
/-!
SUPPORT. One lemma for each field of State under each operation that updates it, so that no later proof unfolds a record update.
-/
namespace Sys2Proof.Machine

variable (s : State)

/-! ### State.respond -/
@[simp] theorem State.respond_pins (st : BitVec 4) (ak : BitVec 3) (d : Word) : (s.respond st ak d).pins = s.pins := rfl
@[simp] theorem State.respond_linkUp (st : BitVec 4) (ak : BitVec 3) (d : Word) : (s.respond st ak d).linkUp = s.linkUp := rfl
@[simp] theorem State.respond_dapReady (st : BitVec 4) (ak : BitVec 3) (d : Word) : (s.respond st ak d).dapReady = s.dapReady := rfl
@[simp] theorem State.respond_cache (st : BitVec 4) (ak : BitVec 3) (d : Word) : (s.respond st ak d).cache = s.cache := rfl
@[simp] theorem State.respond_busy (st : BitVec 4) (ak : BitVec 3) (d : Word) : (s.respond st ak d).busy = false := rfl
@[simp] theorem State.respond_rsp (st : BitVec 4) (ak : BitVec 3) (d : Word) : (s.respond st ak d).rsp = ⟨true, st, ak, d⟩ := rfl
@[simp] theorem State.respond_seq (st : BitVec 4) (ak : BitVec 3) (d : Word) : (s.respond st ak d).seq = .idle := rfl
@[simp] theorem State.respond_dp (st : BitVec 4) (ak : BitVec 3) (d : Word) : (s.respond st ak d).dp = s.dp := rfl
@[simp] theorem State.respond_timer (st : BitVec 4) (ak : BitVec 3) (d : Word) : (s.respond st ak d).timer = s.timer := rfl
@[simp] theorem State.respond_cmd (st : BitVec 4) (ak : BitVec 3) (d : Word) : (s.respond st ak d).cmd = s.cmd := rfl
@[simp] theorem State.respond_result (st : BitVec 4) (ak : BitVec 3) (d : Word) : (s.respond st ak d).result = s.result := rfl
@[simp] theorem State.respond_par (st : BitVec 4) (ak : BitVec 3) (d : Word) : (s.respond st ak d).par = s.par := rfl
@[simp] theorem State.respond_env (st : BitVec 4) (ak : BitVec 3) (d : Word) : (s.respond st ak d).env = s.env := rfl
@[simp] theorem State.respond_obs (st : BitVec 4) (ak : BitVec 3) (d : Word) : (s.respond st ak d).obs = s.obs := rfl

/-! ### State.refuse -/
@[simp] theorem State.refuse_pins (st : BitVec 4) : (s.refuse st).pins = s.pins := rfl
@[simp] theorem State.refuse_linkUp (st : BitVec 4) : (s.refuse st).linkUp = s.linkUp := rfl
@[simp] theorem State.refuse_dapReady (st : BitVec 4) : (s.refuse st).dapReady = s.dapReady := rfl
@[simp] theorem State.refuse_cache (st : BitVec 4) : (s.refuse st).cache = s.cache := rfl
@[simp] theorem State.refuse_busy (st : BitVec 4) : (s.refuse st).busy = false := rfl
@[simp] theorem State.refuse_rsp (st : BitVec 4) : (s.refuse st).rsp = ⟨true, st, 0#3, 0#32⟩ := rfl
@[simp] theorem State.refuse_seq (st : BitVec 4) : (s.refuse st).seq = .idle := rfl
@[simp] theorem State.refuse_dp (st : BitVec 4) : (s.refuse st).dp = s.dp := rfl
@[simp] theorem State.refuse_timer (st : BitVec 4) : (s.refuse st).timer = s.timer := rfl
@[simp] theorem State.refuse_cmd (st : BitVec 4) : (s.refuse st).cmd = s.cmd := rfl
@[simp] theorem State.refuse_result (st : BitVec 4) : (s.refuse st).result = s.result := rfl
@[simp] theorem State.refuse_par (st : BitVec 4) : (s.refuse st).par = s.par := rfl
@[simp] theorem State.refuse_env (st : BitVec 4) : (s.refuse st).env = s.env := rfl
@[simp] theorem State.refuse_obs (st : BitVec 4) : (s.refuse st).obs = s.obs := rfl

/-! ### State.scrub -/
@[simp] theorem State.scrub_pins : (s.scrub).pins = s.pins := rfl
@[simp] theorem State.scrub_linkUp : (s.scrub).linkUp = s.linkUp := rfl
@[simp] theorem State.scrub_dapReady : (s.scrub).dapReady = s.dapReady := rfl
@[simp] theorem State.scrub_cache : (s.scrub).cache = s.cache := rfl
@[simp] theorem State.scrub_busy : (s.scrub).busy = s.busy := rfl
@[simp] theorem State.scrub_rsp : (s.scrub).rsp = s.rsp := rfl
@[simp] theorem State.scrub_seq : (s.scrub).seq = s.seq := rfl
@[simp] theorem State.scrub_timer : (s.scrub).timer = s.timer := rfl
@[simp] theorem State.scrub_cmd : (s.scrub).cmd = s.cmd := rfl
@[simp] theorem State.scrub_result : (s.scrub).result = s.result := rfl
@[simp] theorem State.scrub_par : (s.scrub).par = s.par := rfl
@[simp] theorem State.scrub_env : (s.scrub).env = { s.env with draws := s.env.draws + 2 } := rfl
@[simp] theorem State.scrub_obs : (s.scrub).obs = s.obs := rfl

/-! ### State.logFrame -/
@[simp] theorem State.logFrame_pins (e : FrameEnd) : (s.logFrame e).pins = s.pins := rfl
@[simp] theorem State.logFrame_linkUp (e : FrameEnd) : (s.logFrame e).linkUp = s.linkUp := rfl
@[simp] theorem State.logFrame_dapReady (e : FrameEnd) : (s.logFrame e).dapReady = s.dapReady := rfl
@[simp] theorem State.logFrame_cache (e : FrameEnd) : (s.logFrame e).cache = s.cache := rfl
@[simp] theorem State.logFrame_busy (e : FrameEnd) : (s.logFrame e).busy = s.busy := rfl
@[simp] theorem State.logFrame_rsp (e : FrameEnd) : (s.logFrame e).rsp = s.rsp := rfl
@[simp] theorem State.logFrame_seq (e : FrameEnd) : (s.logFrame e).seq = s.seq := rfl
@[simp] theorem State.logFrame_dp (e : FrameEnd) : (s.logFrame e).dp = s.dp := rfl
@[simp] theorem State.logFrame_timer (e : FrameEnd) : (s.logFrame e).timer = s.timer := rfl
@[simp] theorem State.logFrame_cmd (e : FrameEnd) : (s.logFrame e).cmd = s.cmd := rfl
@[simp] theorem State.logFrame_result (e : FrameEnd) : (s.logFrame e).result = s.result := rfl
@[simp] theorem State.logFrame_par (e : FrameEnd) : (s.logFrame e).par = s.par := rfl
@[simp] theorem State.logFrame_env (e : FrameEnd) : (s.logFrame e).env = s.env := rfl
@[simp] theorem State.logFrame_obs (e : FrameEnd) : (s.logFrame e).obs = { s.obs with frames := s.obs.frames ++ [s.dp.record e] } := rfl

/-! ### State.forgetBank -/
@[simp] theorem State.forgetBank_pins : (s.forgetBank).pins = s.pins := rfl
@[simp] theorem State.forgetBank_linkUp : (s.forgetBank).linkUp = s.linkUp := rfl
@[simp] theorem State.forgetBank_dapReady : (s.forgetBank).dapReady = s.dapReady := rfl
@[simp] theorem State.forgetBank_cache : (s.forgetBank).cache = { s.cache with valid := false } := rfl
@[simp] theorem State.forgetBank_busy : (s.forgetBank).busy = s.busy := rfl
@[simp] theorem State.forgetBank_rsp : (s.forgetBank).rsp = s.rsp := rfl
@[simp] theorem State.forgetBank_seq : (s.forgetBank).seq = s.seq := rfl
@[simp] theorem State.forgetBank_dp : (s.forgetBank).dp = s.dp := rfl
@[simp] theorem State.forgetBank_timer : (s.forgetBank).timer = s.timer := rfl
@[simp] theorem State.forgetBank_cmd : (s.forgetBank).cmd = s.cmd := rfl
@[simp] theorem State.forgetBank_result : (s.forgetBank).result = s.result := rfl
@[simp] theorem State.forgetBank_par : (s.forgetBank).par = s.par := rfl
@[simp] theorem State.forgetBank_env : (s.forgetBank).env = s.env := rfl
@[simp] theorem State.forgetBank_obs : (s.forgetBank).obs = s.obs := rfl

/-! ### State.freePins -/
@[simp] theorem State.freePins_linkUp : (s.freePins).linkUp = s.linkUp := rfl
@[simp] theorem State.freePins_dapReady : (s.freePins).dapReady = s.dapReady := rfl
@[simp] theorem State.freePins_cache : (s.freePins).cache = s.cache := rfl
@[simp] theorem State.freePins_busy : (s.freePins).busy = s.busy := rfl
@[simp] theorem State.freePins_rsp : (s.freePins).rsp = s.rsp := rfl
@[simp] theorem State.freePins_seq : (s.freePins).seq = s.seq := rfl
@[simp] theorem State.freePins_dp : (s.freePins).dp = s.dp := rfl
@[simp] theorem State.freePins_timer : (s.freePins).timer = s.timer := rfl
@[simp] theorem State.freePins_cmd : (s.freePins).cmd = s.cmd := rfl
@[simp] theorem State.freePins_result : (s.freePins).result = s.result := rfl
@[simp] theorem State.freePins_par : (s.freePins).par = s.par := rfl
@[simp] theorem State.freePins_env : (s.freePins).env = { s.env with draws := s.env.draws + 4 } := rfl
@[simp] theorem State.freePins_obs : (s.freePins).obs = s.obs := rfl

/-! ### State.emit -/
@[simp] theorem State.emit_pins (e : Event) : (s.emit e).pins = s.pins := rfl
@[simp] theorem State.emit_linkUp (e : Event) : (s.emit e).linkUp = s.linkUp := rfl
@[simp] theorem State.emit_dapReady (e : Event) : (s.emit e).dapReady = s.dapReady := rfl
@[simp] theorem State.emit_cache (e : Event) : (s.emit e).cache = s.cache := rfl
@[simp] theorem State.emit_busy (e : Event) : (s.emit e).busy = s.busy := rfl
@[simp] theorem State.emit_rsp (e : Event) : (s.emit e).rsp = s.rsp := rfl
@[simp] theorem State.emit_seq (e : Event) : (s.emit e).seq = s.seq := rfl
@[simp] theorem State.emit_dp (e : Event) : (s.emit e).dp = s.dp := rfl
@[simp] theorem State.emit_timer (e : Event) : (s.emit e).timer = s.timer := rfl
@[simp] theorem State.emit_cmd (e : Event) : (s.emit e).cmd = s.cmd := rfl
@[simp] theorem State.emit_result (e : Event) : (s.emit e).result = s.result := rfl
@[simp] theorem State.emit_par (e : Event) : (s.emit e).par = s.par := rfl
@[simp] theorem State.emit_env (e : Event) : (s.emit e).env = s.env := rfl
@[simp] theorem State.emit_obs (e : Event) : (s.emit e).obs = { s.obs with trace := s.obs.trace ++ [e] } := rfl

/-! ### State.passEvent -/
@[simp] theorem State.passEvent_pins : (s.passEvent).pins = s.pins := rfl
@[simp] theorem State.passEvent_linkUp : (s.passEvent).linkUp = s.linkUp := rfl
@[simp] theorem State.passEvent_dapReady : (s.passEvent).dapReady = s.dapReady := rfl
@[simp] theorem State.passEvent_cache : (s.passEvent).cache = s.cache := rfl
@[simp] theorem State.passEvent_busy : (s.passEvent).busy = s.busy := rfl
@[simp] theorem State.passEvent_rsp : (s.passEvent).rsp = s.rsp := rfl
@[simp] theorem State.passEvent_seq : (s.passEvent).seq = s.seq := rfl
@[simp] theorem State.passEvent_dp : (s.passEvent).dp = s.dp := rfl
@[simp] theorem State.passEvent_timer : (s.passEvent).timer = s.timer := rfl
@[simp] theorem State.passEvent_cmd : (s.passEvent).cmd = s.cmd := rfl
@[simp] theorem State.passEvent_result : (s.passEvent).result = s.result := rfl
@[simp] theorem State.passEvent_par : (s.passEvent).par = s.par := rfl
@[simp] theorem State.passEvent_env : (s.passEvent).env = { s.env with resets := elapse 1 s.env.resets, linkFaults := countdown s.env.linkFaults } := rfl
@[simp] theorem State.passEvent_obs : (s.passEvent).obs = s.obs := rfl

/-! ### State.pass -/
@[simp] theorem State.pass_pins (n : Nat) : (s.pass n).pins = s.pins := rfl
@[simp] theorem State.pass_linkUp (n : Nat) : (s.pass n).linkUp = s.linkUp := rfl
@[simp] theorem State.pass_dapReady (n : Nat) : (s.pass n).dapReady = s.dapReady := rfl
@[simp] theorem State.pass_cache (n : Nat) : (s.pass n).cache = s.cache := rfl
@[simp] theorem State.pass_busy (n : Nat) : (s.pass n).busy = s.busy := rfl
@[simp] theorem State.pass_rsp (n : Nat) : (s.pass n).rsp = s.rsp := rfl
@[simp] theorem State.pass_seq (n : Nat) : (s.pass n).seq = s.seq := rfl
@[simp] theorem State.pass_dp (n : Nat) : (s.pass n).dp = s.dp := rfl
@[simp] theorem State.pass_timer (n : Nat) : (s.pass n).timer = s.timer := rfl
@[simp] theorem State.pass_cmd (n : Nat) : (s.pass n).cmd = s.cmd := rfl
@[simp] theorem State.pass_result (n : Nat) : (s.pass n).result = s.result := rfl
@[simp] theorem State.pass_par (n : Nat) : (s.pass n).par = s.par := rfl
@[simp] theorem State.pass_env (n : Nat) : (s.pass n).env = { s.env with resets := elapse n s.env.resets } := rfl
@[simp] theorem State.pass_obs (n : Nat) : (s.pass n).obs = s.obs := rfl

/-! ### State.halfPassed -/
@[simp] theorem State.halfPassed_pins : (s.halfPassed).pins = s.pins := rfl
@[simp] theorem State.halfPassed_linkUp : (s.halfPassed).linkUp = s.linkUp := rfl
@[simp] theorem State.halfPassed_dapReady : (s.halfPassed).dapReady = s.dapReady := rfl
@[simp] theorem State.halfPassed_cache : (s.halfPassed).cache = s.cache := rfl
@[simp] theorem State.halfPassed_busy : (s.halfPassed).busy = s.busy := rfl
@[simp] theorem State.halfPassed_rsp : (s.halfPassed).rsp = s.rsp := rfl
@[simp] theorem State.halfPassed_seq : (s.halfPassed).seq = s.seq := rfl
@[simp] theorem State.halfPassed_dp : (s.halfPassed).dp = s.dp := rfl
@[simp] theorem State.halfPassed_cmd : (s.halfPassed).cmd = s.cmd := rfl
@[simp] theorem State.halfPassed_result : (s.halfPassed).result = s.result := rfl
@[simp] theorem State.halfPassed_par : (s.halfPassed).par = s.par := rfl
@[simp] theorem State.halfPassed_env : (s.halfPassed).env = { s.env with resets := elapse (halfPeriod s.par) s.env.resets } := rfl
@[simp] theorem State.halfPassed_obs : (s.halfPassed).obs = { s.obs with wave := s.obs.wave ++ [s.pins], elapsed := s.obs.elapsed + halfPeriod s.par } := rfl

/-! ### State.driveLow -/
@[simp] theorem State.driveLow_pins (b : Bool) : (s.driveLow b).pins = { s.pins with swclkO := false, swdioO := b } := rfl
@[simp] theorem State.driveLow_linkUp (b : Bool) : (s.driveLow b).linkUp = s.linkUp := rfl
@[simp] theorem State.driveLow_dapReady (b : Bool) : (s.driveLow b).dapReady = s.dapReady := rfl
@[simp] theorem State.driveLow_cache (b : Bool) : (s.driveLow b).cache = s.cache := rfl
@[simp] theorem State.driveLow_busy (b : Bool) : (s.driveLow b).busy = s.busy := rfl
@[simp] theorem State.driveLow_rsp (b : Bool) : (s.driveLow b).rsp = s.rsp := rfl
@[simp] theorem State.driveLow_seq (b : Bool) : (s.driveLow b).seq = s.seq := rfl
@[simp] theorem State.driveLow_dp (b : Bool) : (s.driveLow b).dp = s.dp := rfl
@[simp] theorem State.driveLow_timer (b : Bool) : (s.driveLow b).timer = s.timer := rfl
@[simp] theorem State.driveLow_cmd (b : Bool) : (s.driveLow b).cmd = s.cmd := rfl
@[simp] theorem State.driveLow_result (b : Bool) : (s.driveLow b).result = s.result := rfl
@[simp] theorem State.driveLow_par (b : Bool) : (s.driveLow b).par = s.par := rfl
@[simp] theorem State.driveLow_env (b : Bool) : (s.driveLow b).env = s.env := rfl
@[simp] theorem State.driveLow_obs (b : Bool) : (s.driveLow b).obs = s.obs := rfl

/-! ### State.clockTo -/
@[simp] theorem State.clockTo_pins (b : Bool) : (s.clockTo b).pins = { s.pins with swclkO := b } := rfl
@[simp] theorem State.clockTo_linkUp (b : Bool) : (s.clockTo b).linkUp = s.linkUp := rfl
@[simp] theorem State.clockTo_dapReady (b : Bool) : (s.clockTo b).dapReady = s.dapReady := rfl
@[simp] theorem State.clockTo_cache (b : Bool) : (s.clockTo b).cache = s.cache := rfl
@[simp] theorem State.clockTo_busy (b : Bool) : (s.clockTo b).busy = s.busy := rfl
@[simp] theorem State.clockTo_rsp (b : Bool) : (s.clockTo b).rsp = s.rsp := rfl
@[simp] theorem State.clockTo_seq (b : Bool) : (s.clockTo b).seq = s.seq := rfl
@[simp] theorem State.clockTo_dp (b : Bool) : (s.clockTo b).dp = s.dp := rfl
@[simp] theorem State.clockTo_timer (b : Bool) : (s.clockTo b).timer = s.timer := rfl
@[simp] theorem State.clockTo_cmd (b : Bool) : (s.clockTo b).cmd = s.cmd := rfl
@[simp] theorem State.clockTo_result (b : Bool) : (s.clockTo b).result = s.result := rfl
@[simp] theorem State.clockTo_par (b : Bool) : (s.clockTo b).par = s.par := rfl
@[simp] theorem State.clockTo_env (b : Bool) : (s.clockTo b).env = s.env := rfl
@[simp] theorem State.clockTo_obs (b : Bool) : (s.clockTo b).obs = s.obs := rfl

/-! ### State.loadFrame -/
@[simp] theorem State.loadFrame_pins (k : Nat) (r : Request) (d : Word) : (s.loadFrame k r d).pins = s.pins := rfl
@[simp] theorem State.loadFrame_linkUp (k : Nat) (r : Request) (d : Word) : (s.loadFrame k r d).linkUp = s.linkUp := rfl
@[simp] theorem State.loadFrame_dapReady (k : Nat) (r : Request) (d : Word) : (s.loadFrame k r d).dapReady = s.dapReady := rfl
@[simp] theorem State.loadFrame_cache (k : Nat) (r : Request) (d : Word) : (s.loadFrame k r d).cache = s.cache := rfl
@[simp] theorem State.loadFrame_busy (k : Nat) (r : Request) (d : Word) : (s.loadFrame k r d).busy = s.busy := rfl
@[simp] theorem State.loadFrame_rsp (k : Nat) (r : Request) (d : Word) : (s.loadFrame k r d).rsp = s.rsp := rfl
@[simp] theorem State.loadFrame_seq (k : Nat) (r : Request) (d : Word) : (s.loadFrame k r d).seq = .pos k .header 0 := rfl
@[simp] theorem State.loadFrame_dp (k : Nat) (r : Request) (d : Word) : (s.loadFrame k r d).dp = ⟨d, 0#32, 0#3, false, r.header⟩ := rfl
@[simp] theorem State.loadFrame_timer (k : Nat) (r : Request) (d : Word) : (s.loadFrame k r d).timer = s.timer := rfl
@[simp] theorem State.loadFrame_cmd (k : Nat) (r : Request) (d : Word) : (s.loadFrame k r d).cmd = s.cmd := rfl
@[simp] theorem State.loadFrame_result (k : Nat) (r : Request) (d : Word) : (s.loadFrame k r d).result = s.result := rfl
@[simp] theorem State.loadFrame_par (k : Nat) (r : Request) (d : Word) : (s.loadFrame k r d).par = s.par := rfl
@[simp] theorem State.loadFrame_env (k : Nat) (r : Request) (d : Word) : (s.loadFrame k r d).env = s.env := rfl
@[simp] theorem State.loadFrame_obs (k : Nat) (r : Request) (d : Word) : (s.loadFrame k r d).obs = s.obs := rfl

/-! ### State.withDp -/
@[simp] theorem State.withDp_pins (d : Datapath) : (s.withDp d).pins = s.pins := rfl
@[simp] theorem State.withDp_linkUp (d : Datapath) : (s.withDp d).linkUp = s.linkUp := rfl
@[simp] theorem State.withDp_dapReady (d : Datapath) : (s.withDp d).dapReady = s.dapReady := rfl
@[simp] theorem State.withDp_cache (d : Datapath) : (s.withDp d).cache = s.cache := rfl
@[simp] theorem State.withDp_busy (d : Datapath) : (s.withDp d).busy = s.busy := rfl
@[simp] theorem State.withDp_rsp (d : Datapath) : (s.withDp d).rsp = s.rsp := rfl
@[simp] theorem State.withDp_seq (d : Datapath) : (s.withDp d).seq = s.seq := rfl
@[simp] theorem State.withDp_dp (d : Datapath) : (s.withDp d).dp = d := rfl
@[simp] theorem State.withDp_timer (d : Datapath) : (s.withDp d).timer = s.timer := rfl
@[simp] theorem State.withDp_cmd (d : Datapath) : (s.withDp d).cmd = s.cmd := rfl
@[simp] theorem State.withDp_result (d : Datapath) : (s.withDp d).result = s.result := rfl
@[simp] theorem State.withDp_par (d : Datapath) : (s.withDp d).par = s.par := rfl
@[simp] theorem State.withDp_env (d : Datapath) : (s.withDp d).env = s.env := rfl
@[simp] theorem State.withDp_obs (d : Datapath) : (s.withDp d).obs = s.obs := rfl

/-! ### State.goto -/
@[simp] theorem State.goto_pins (q : Seq) : (s.goto q).pins = s.pins := rfl
@[simp] theorem State.goto_linkUp (q : Seq) : (s.goto q).linkUp = s.linkUp := rfl
@[simp] theorem State.goto_dapReady (q : Seq) : (s.goto q).dapReady = s.dapReady := rfl
@[simp] theorem State.goto_cache (q : Seq) : (s.goto q).cache = s.cache := rfl
@[simp] theorem State.goto_busy (q : Seq) : (s.goto q).busy = s.busy := rfl
@[simp] theorem State.goto_rsp (q : Seq) : (s.goto q).rsp = s.rsp := rfl
@[simp] theorem State.goto_seq (q : Seq) : (s.goto q).seq = q := rfl
@[simp] theorem State.goto_dp (q : Seq) : (s.goto q).dp = s.dp := rfl
@[simp] theorem State.goto_timer (q : Seq) : (s.goto q).timer = s.timer := rfl
@[simp] theorem State.goto_cmd (q : Seq) : (s.goto q).cmd = s.cmd := rfl
@[simp] theorem State.goto_result (q : Seq) : (s.goto q).result = s.result := rfl
@[simp] theorem State.goto_par (q : Seq) : (s.goto q).par = s.par := rfl
@[simp] theorem State.goto_env (q : Seq) : (s.goto q).env = s.env := rfl
@[simp] theorem State.goto_obs (q : Seq) : (s.goto q).obs = s.obs := rfl

/-! ### State.accept -/
@[simp] theorem State.accept_pins (c : Command) (rest : List Command) : (s.accept c rest).pins = s.pins := rfl
@[simp] theorem State.accept_linkUp (c : Command) (rest : List Command) : (s.accept c rest).linkUp = s.linkUp := rfl
@[simp] theorem State.accept_dapReady (c : Command) (rest : List Command) : (s.accept c rest).dapReady = s.dapReady := rfl
@[simp] theorem State.accept_cache (c : Command) (rest : List Command) : (s.accept c rest).cache = s.cache := rfl
@[simp] theorem State.accept_busy (c : Command) (rest : List Command) : (s.accept c rest).busy = true := rfl
@[simp] theorem State.accept_rsp (c : Command) (rest : List Command) : (s.accept c rest).rsp = { s.rsp with valid := false } := rfl
@[simp] theorem State.accept_seq (c : Command) (rest : List Command) : (s.accept c rest).seq = s.seq := rfl
@[simp] theorem State.accept_dp (c : Command) (rest : List Command) : (s.accept c rest).dp = s.dp := rfl
@[simp] theorem State.accept_timer (c : Command) (rest : List Command) : (s.accept c rest).timer = s.timer := rfl
@[simp] theorem State.accept_cmd (c : Command) (rest : List Command) : (s.accept c rest).cmd = c := rfl
@[simp] theorem State.accept_result (c : Command) (rest : List Command) : (s.accept c rest).result = s.result := rfl
@[simp] theorem State.accept_par (c : Command) (rest : List Command) : (s.accept c rest).par = s.par := rfl
@[simp] theorem State.accept_env (c : Command) (rest : List Command) : (s.accept c rest).env = { s.env with offers := rest } := rfl
@[simp] theorem State.accept_obs (c : Command) (rest : List Command) : (s.accept c rest).obs = s.obs := rfl

/-! ### State.begin -/
@[simp] theorem State.begin_pins (i : Instr) : (s.begin i).pins = s.pins := rfl
@[simp] theorem State.begin_linkUp (i : Instr) : (s.begin i).linkUp = s.linkUp := rfl
@[simp] theorem State.begin_dapReady (i : Instr) : (s.begin i).dapReady = s.dapReady := rfl
@[simp] theorem State.begin_cache (i : Instr) : (s.begin i).cache = s.cache := rfl
@[simp] theorem State.begin_busy (i : Instr) : (s.begin i).busy = true := rfl
@[simp] theorem State.begin_rsp (i : Instr) : (s.begin i).rsp = { s.rsp with valid := false } := rfl
@[simp] theorem State.begin_seq (i : Instr) : (s.begin i).seq = s.seq := rfl
@[simp] theorem State.begin_dp (i : Instr) : (s.begin i).dp = s.dp := rfl
@[simp] theorem State.begin_timer (i : Instr) : (s.begin i).timer = s.timer := rfl
@[simp] theorem State.begin_cmd (i : Instr) : (s.begin i).cmd = if s.current = some i then s.cmd else i.command := rfl
@[simp] theorem State.begin_result (i : Instr) : (s.begin i).result = 0#32 := rfl
@[simp] theorem State.begin_par (i : Instr) : (s.begin i).par = s.par := rfl
@[simp] theorem State.begin_env (i : Instr) : (s.begin i).env = s.env := rfl
@[simp] theorem State.begin_obs (i : Instr) : (s.begin i).obs = s.obs := rfl

/-! ### State.endLineReset -/
@[simp] theorem State.endLineReset_pins : (s.endLineReset).pins = s.pins := rfl
@[simp] theorem State.endLineReset_linkUp : (s.endLineReset).linkUp = true := rfl
@[simp] theorem State.endLineReset_dapReady : (s.endLineReset).dapReady = s.dapReady := rfl
@[simp] theorem State.endLineReset_cache : (s.endLineReset).cache = s.cache := rfl
@[simp] theorem State.endLineReset_busy : (s.endLineReset).busy = false := rfl
@[simp] theorem State.endLineReset_rsp : (s.endLineReset).rsp = ⟨true, statusOk, 0#3, 0#32⟩ := rfl
@[simp] theorem State.endLineReset_seq : (s.endLineReset).seq = .idle := rfl
@[simp] theorem State.endLineReset_dp : (s.endLineReset).dp = s.dp := rfl
@[simp] theorem State.endLineReset_timer : (s.endLineReset).timer = s.timer := rfl
@[simp] theorem State.endLineReset_cmd : (s.endLineReset).cmd = s.cmd := rfl
@[simp] theorem State.endLineReset_result : (s.endLineReset).result = s.result := rfl
@[simp] theorem State.endLineReset_par : (s.endLineReset).par = s.par := rfl
@[simp] theorem State.endLineReset_env : (s.endLineReset).env = s.env := rfl
@[simp] theorem State.endLineReset_obs : (s.endLineReset).obs = s.obs := rfl

/-! ### State.startLineReset -/
@[simp] theorem State.startLineReset_pins : (s.startLineReset).pins = s.pins := rfl
@[simp] theorem State.startLineReset_linkUp : (s.startLineReset).linkUp = s.linkUp := rfl
@[simp] theorem State.startLineReset_dapReady : (s.startLineReset).dapReady = false := rfl
@[simp] theorem State.startLineReset_cache : (s.startLineReset).cache = s.cache := rfl
@[simp] theorem State.startLineReset_busy : (s.startLineReset).busy = s.busy := rfl
@[simp] theorem State.startLineReset_rsp : (s.startLineReset).rsp = s.rsp := rfl
@[simp] theorem State.startLineReset_seq : (s.startLineReset).seq = .pos 0 .ones 0 := rfl
@[simp] theorem State.startLineReset_dp : (s.startLineReset).dp = s.dp := rfl
@[simp] theorem State.startLineReset_timer : (s.startLineReset).timer = s.timer := rfl
@[simp] theorem State.startLineReset_cmd : (s.startLineReset).cmd = s.cmd := rfl
@[simp] theorem State.startLineReset_result : (s.startLineReset).result = s.result := rfl
@[simp] theorem State.startLineReset_par : (s.startLineReset).par = s.par := rfl
@[simp] theorem State.startLineReset_env : (s.startLineReset).env = s.env := rfl
@[simp] theorem State.startLineReset_obs : (s.startLineReset).obs = s.obs := rfl

/-! ### State.blockReset -/
@[simp] theorem State.blockReset_pins : (s.blockReset).pins = State.reset.pins := rfl
@[simp] theorem State.blockReset_linkUp : (s.blockReset).linkUp = State.reset.linkUp := rfl
@[simp] theorem State.blockReset_dapReady : (s.blockReset).dapReady = State.reset.dapReady := rfl
@[simp] theorem State.blockReset_cache : (s.blockReset).cache = State.reset.cache := rfl
@[simp] theorem State.blockReset_busy : (s.blockReset).busy = State.reset.busy := rfl
@[simp] theorem State.blockReset_rsp : (s.blockReset).rsp = State.reset.rsp := rfl
@[simp] theorem State.blockReset_seq : (s.blockReset).seq = State.reset.seq := rfl
@[simp] theorem State.blockReset_dp : (s.blockReset).dp = State.reset.dp := rfl
@[simp] theorem State.blockReset_timer : (s.blockReset).timer = State.reset.timer := rfl
@[simp] theorem State.blockReset_cmd : (s.blockReset).cmd = State.reset.cmd := rfl
@[simp] theorem State.blockReset_result : (s.blockReset).result = State.reset.result := rfl
@[simp] theorem State.blockReset_par : (s.blockReset).par = s.par := rfl
@[simp] theorem State.blockReset_env : (s.blockReset).env = { s.env with resets := s.env.resets.tail } := rfl
@[simp] theorem State.blockReset_obs : (s.blockReset).obs = s.obs := rfl

/-! ### State.forgetBankIfSelecting -/
@[simp] theorem State.forgetBankIfSelecting_pins : (s.forgetBankIfSelecting).pins = s.pins := by
  unfold State.forgetBankIfSelecting; repeat' split
  all_goals rfl
@[simp] theorem State.forgetBankIfSelecting_linkUp : (s.forgetBankIfSelecting).linkUp = s.linkUp := by
  unfold State.forgetBankIfSelecting; repeat' split
  all_goals rfl
@[simp] theorem State.forgetBankIfSelecting_dapReady : (s.forgetBankIfSelecting).dapReady = s.dapReady := by
  unfold State.forgetBankIfSelecting; repeat' split
  all_goals rfl
@[simp] theorem State.forgetBankIfSelecting_busy : (s.forgetBankIfSelecting).busy = s.busy := by
  unfold State.forgetBankIfSelecting; repeat' split
  all_goals rfl
@[simp] theorem State.forgetBankIfSelecting_rsp : (s.forgetBankIfSelecting).rsp = s.rsp := by
  unfold State.forgetBankIfSelecting; repeat' split
  all_goals rfl
@[simp] theorem State.forgetBankIfSelecting_seq : (s.forgetBankIfSelecting).seq = s.seq := by
  unfold State.forgetBankIfSelecting; repeat' split
  all_goals rfl
@[simp] theorem State.forgetBankIfSelecting_dp : (s.forgetBankIfSelecting).dp = s.dp := by
  unfold State.forgetBankIfSelecting; repeat' split
  all_goals rfl
@[simp] theorem State.forgetBankIfSelecting_timer : (s.forgetBankIfSelecting).timer = s.timer := by
  unfold State.forgetBankIfSelecting; repeat' split
  all_goals rfl
@[simp] theorem State.forgetBankIfSelecting_cmd : (s.forgetBankIfSelecting).cmd = s.cmd := by
  unfold State.forgetBankIfSelecting; repeat' split
  all_goals rfl
@[simp] theorem State.forgetBankIfSelecting_result : (s.forgetBankIfSelecting).result = s.result := by
  unfold State.forgetBankIfSelecting; repeat' split
  all_goals rfl
@[simp] theorem State.forgetBankIfSelecting_par : (s.forgetBankIfSelecting).par = s.par := by
  unfold State.forgetBankIfSelecting; repeat' split
  all_goals rfl
@[simp] theorem State.forgetBankIfSelecting_env : (s.forgetBankIfSelecting).env = s.env := by
  unfold State.forgetBankIfSelecting; repeat' split
  all_goals rfl
@[simp] theorem State.forgetBankIfSelecting_obs : (s.forgetBankIfSelecting).obs = s.obs := by
  unfold State.forgetBankIfSelecting; repeat' split
  all_goals rfl

/-! ### State.useLevel -/
@[simp] theorem State.useLevel_pins : (s.useLevel).pins = s.pins := by
  unfold State.useLevel; repeat' split
  all_goals rfl
@[simp] theorem State.useLevel_linkUp : (s.useLevel).linkUp = s.linkUp := by
  unfold State.useLevel; repeat' split
  all_goals rfl
@[simp] theorem State.useLevel_dapReady : (s.useLevel).dapReady = s.dapReady := by
  unfold State.useLevel; repeat' split
  all_goals rfl
@[simp] theorem State.useLevel_cache : (s.useLevel).cache = s.cache := by
  unfold State.useLevel; repeat' split
  all_goals rfl
@[simp] theorem State.useLevel_busy : (s.useLevel).busy = s.busy := by
  unfold State.useLevel; repeat' split
  all_goals rfl
@[simp] theorem State.useLevel_rsp : (s.useLevel).rsp = s.rsp := by
  unfold State.useLevel; repeat' split
  all_goals rfl
@[simp] theorem State.useLevel_seq : (s.useLevel).seq = s.seq := by
  unfold State.useLevel; repeat' split
  all_goals rfl
@[simp] theorem State.useLevel_dp : (s.useLevel).dp = s.dp := by
  unfold State.useLevel; repeat' split
  all_goals rfl
@[simp] theorem State.useLevel_timer : (s.useLevel).timer = s.timer := by
  unfold State.useLevel; repeat' split
  all_goals rfl
@[simp] theorem State.useLevel_cmd : (s.useLevel).cmd = s.cmd := by
  unfold State.useLevel; repeat' split
  all_goals rfl
@[simp] theorem State.useLevel_result : (s.useLevel).result = s.result := by
  unfold State.useLevel; repeat' split
  all_goals rfl
@[simp] theorem State.useLevel_par : (s.useLevel).par = s.par := by
  unfold State.useLevel; repeat' split
  all_goals rfl
@[simp] theorem State.useLevel_obs : (s.useLevel).obs = s.obs := by
  unfold State.useLevel; repeat' split
  all_goals rfl

/-! ### State.opEffect -/
@[simp] theorem State.opEffect_pins (op : FrameOp) : (s.opEffect op).pins = s.pins := by
  unfold State.opEffect; repeat' split
  all_goals rfl
@[simp] theorem State.opEffect_linkUp (op : FrameOp) : (s.opEffect op).linkUp = s.linkUp := by
  unfold State.opEffect; repeat' split
  all_goals rfl
@[simp] theorem State.opEffect_dapReady (op : FrameOp) : (s.opEffect op).dapReady = s.dapReady := by
  unfold State.opEffect; repeat' split
  all_goals rfl
@[simp] theorem State.opEffect_busy (op : FrameOp) : (s.opEffect op).busy = s.busy := by
  unfold State.opEffect; repeat' split
  all_goals rfl
@[simp] theorem State.opEffect_rsp (op : FrameOp) : (s.opEffect op).rsp = s.rsp := by
  unfold State.opEffect; repeat' split
  all_goals rfl
@[simp] theorem State.opEffect_seq (op : FrameOp) : (s.opEffect op).seq = s.seq := by
  unfold State.opEffect; repeat' split
  all_goals rfl
@[simp] theorem State.opEffect_dp (op : FrameOp) : (s.opEffect op).dp = s.dp := by
  unfold State.opEffect; repeat' split
  all_goals rfl
@[simp] theorem State.opEffect_timer (op : FrameOp) : (s.opEffect op).timer = s.timer := by
  unfold State.opEffect; repeat' split
  all_goals rfl
@[simp] theorem State.opEffect_cmd (op : FrameOp) : (s.opEffect op).cmd = s.cmd := by
  unfold State.opEffect; repeat' split
  all_goals rfl
@[simp] theorem State.opEffect_par (op : FrameOp) : (s.opEffect op).par = s.par := by
  unfold State.opEffect; repeat' split
  all_goals rfl
@[simp] theorem State.opEffect_env (op : FrameOp) : (s.opEffect op).env = s.env := by
  unfold State.opEffect; repeat' split
  all_goals rfl
@[simp] theorem State.opEffect_obs (op : FrameOp) : (s.opEffect op).obs = s.obs := by
  unfold State.opEffect; repeat' split
  all_goals rfl

/-! ### State.frameEffect -/
@[simp] theorem State.frameEffect_pins : (s.frameEffect).pins = s.pins := by
  unfold State.frameEffect; split <;> simp
@[simp] theorem State.frameEffect_linkUp : (s.frameEffect).linkUp = s.linkUp := by
  unfold State.frameEffect; split <;> simp
@[simp] theorem State.frameEffect_dapReady : (s.frameEffect).dapReady = s.dapReady := by
  unfold State.frameEffect; split <;> simp
@[simp] theorem State.frameEffect_busy : (s.frameEffect).busy = s.busy := by
  unfold State.frameEffect; split <;> simp
@[simp] theorem State.frameEffect_rsp : (s.frameEffect).rsp = s.rsp := by
  unfold State.frameEffect; split <;> simp
@[simp] theorem State.frameEffect_seq : (s.frameEffect).seq = s.seq := by
  unfold State.frameEffect; split <;> simp
@[simp] theorem State.frameEffect_dp : (s.frameEffect).dp = s.dp := by
  unfold State.frameEffect; split <;> simp
@[simp] theorem State.frameEffect_timer : (s.frameEffect).timer = s.timer := by
  unfold State.frameEffect; split <;> simp
@[simp] theorem State.frameEffect_cmd : (s.frameEffect).cmd = s.cmd := by
  unfold State.frameEffect; split <;> simp
@[simp] theorem State.frameEffect_par : (s.frameEffect).par = s.par := by
  unfold State.frameEffect; split <;> simp
@[simp] theorem State.frameEffect_env : (s.frameEffect).env = s.env := by
  unfold State.frameEffect; split <;> simp
@[simp] theorem State.frameEffect_obs : (s.frameEffect).obs = s.obs := by
  unfold State.frameEffect; split <;> simp

/-! ### State.complete -/
@[simp] theorem State.complete_pins (ak : BitVec 3) : (s.complete ak).pins = s.pins := by
  unfold State.complete; repeat' split
  all_goals rfl
@[simp] theorem State.complete_linkUp (ak : BitVec 3) : (s.complete ak).linkUp = s.linkUp := by
  unfold State.complete; repeat' split
  all_goals rfl
@[simp] theorem State.complete_cache (ak : BitVec 3) : (s.complete ak).cache = s.cache := by
  unfold State.complete; repeat' split
  all_goals rfl
@[simp] theorem State.complete_dp (ak : BitVec 3) : (s.complete ak).dp = s.dp := by
  unfold State.complete; repeat' split
  all_goals rfl
@[simp] theorem State.complete_timer (ak : BitVec 3) : (s.complete ak).timer = s.timer := by
  unfold State.complete; repeat' split
  all_goals rfl
@[simp] theorem State.complete_cmd (ak : BitVec 3) : (s.complete ak).cmd = s.cmd := by
  unfold State.complete; repeat' split
  all_goals rfl
@[simp] theorem State.complete_result (ak : BitVec 3) : (s.complete ak).result = s.result := by
  unfold State.complete; repeat' split
  all_goals rfl
@[simp] theorem State.complete_par (ak : BitVec 3) : (s.complete ak).par = s.par := by
  unfold State.complete; repeat' split
  all_goals rfl
@[simp] theorem State.complete_env (ak : BitVec 3) : (s.complete ak).env = s.env := by
  unfold State.complete; repeat' split
  all_goals rfl
@[simp] theorem State.complete_obs (ak : BitVec 3) : (s.complete ak).obs = s.obs := by
  unfold State.complete; repeat' split
  all_goals rfl

/-! ### State.takeLevel -/
@[simp] theorem State.takeLevel_linkUp : (s.takeLevel).linkUp = s.linkUp := by
  simp [State.takeLevel]
@[simp] theorem State.takeLevel_dapReady : (s.takeLevel).dapReady = s.dapReady := by
  simp [State.takeLevel]
@[simp] theorem State.takeLevel_cache : (s.takeLevel).cache = s.cache := by
  simp [State.takeLevel]
@[simp] theorem State.takeLevel_busy : (s.takeLevel).busy = s.busy := by
  simp [State.takeLevel]
@[simp] theorem State.takeLevel_rsp : (s.takeLevel).rsp = s.rsp := by
  simp [State.takeLevel]
@[simp] theorem State.takeLevel_seq : (s.takeLevel).seq = s.seq := by
  simp [State.takeLevel]
@[simp] theorem State.takeLevel_dp : (s.takeLevel).dp = s.dp := by
  simp [State.takeLevel]
@[simp] theorem State.takeLevel_timer : (s.takeLevel).timer = s.timer := by
  simp [State.takeLevel]
@[simp] theorem State.takeLevel_cmd : (s.takeLevel).cmd = s.cmd := by
  simp [State.takeLevel]
@[simp] theorem State.takeLevel_result : (s.takeLevel).result = s.result := by
  simp [State.takeLevel]
@[simp] theorem State.takeLevel_par : (s.takeLevel).par = s.par := by
  simp [State.takeLevel]
@[simp] theorem State.takeLevel_obs : (s.takeLevel).obs = s.obs := by
  simp [State.takeLevel]

/-! ### State.startFrame -/
@[simp] theorem State.startFrame_pins (k : Nat) (r : Request) (d : Word) : (s.startFrame k r d).pins = s.pins := by
  simp only [State.startFrame]; split <;> rfl
@[simp] theorem State.startFrame_linkUp (k : Nat) (r : Request) (d : Word) : (s.startFrame k r d).linkUp = s.linkUp := by
  simp only [State.startFrame]; split <;> rfl
@[simp] theorem State.startFrame_dapReady (k : Nat) (r : Request) (d : Word) : (s.startFrame k r d).dapReady = s.dapReady := by
  simp only [State.startFrame]; split <;> rfl
@[simp] theorem State.startFrame_busy (k : Nat) (r : Request) (d : Word) : (s.startFrame k r d).busy = s.busy := by
  simp only [State.startFrame]; split <;> rfl
@[simp] theorem State.startFrame_rsp (k : Nat) (r : Request) (d : Word) : (s.startFrame k r d).rsp = s.rsp := by
  simp only [State.startFrame]; split <;> rfl
@[simp] theorem State.startFrame_timer (k : Nat) (r : Request) (d : Word) : (s.startFrame k r d).timer = s.timer := by
  simp only [State.startFrame]; split <;> rfl
@[simp] theorem State.startFrame_cmd (k : Nat) (r : Request) (d : Word) : (s.startFrame k r d).cmd = s.cmd := by
  simp only [State.startFrame]; split <;> rfl
@[simp] theorem State.startFrame_result (k : Nat) (r : Request) (d : Word) : (s.startFrame k r d).result = s.result := by
  simp only [State.startFrame]; split <;> rfl
@[simp] theorem State.startFrame_par (k : Nat) (r : Request) (d : Word) : (s.startFrame k r d).par = s.par := by
  simp only [State.startFrame]; split <;> rfl
@[simp] theorem State.startFrame_env (k : Nat) (r : Request) (d : Word) : (s.startFrame k r d).env = s.env := by
  simp only [State.startFrame]; split <;> rfl
@[simp] theorem State.startFrame_obs (k : Nat) (r : Request) (d : Word) : (s.startFrame k r d).obs = s.obs := by
  simp only [State.startFrame]; split <;> rfl

@[simp] theorem State.halfPassed_timer : s.halfPassed.timer = 0 := Nat.sub_self _
@[simp] theorem State.takeLevel_pins : s.takeLevel.pins = { s.pins with swclkO := true } := by
  simp [State.takeLevel]
@[simp] theorem State.startFrame_seq (k : Nat) (r : Request) (d : Word) : (s.startFrame k r d).seq = .pos k .header 0 := by
  simp only [State.startFrame]; split <;> rfl
@[simp] theorem State.startFrame_dp (k : Nat) (r : Request) (d : Word) :
    (s.startFrame k r d).dp = ⟨d, 0#32, 0#3, false, r.header⟩ := by
  simp only [State.startFrame]; split <;> rfl
@[simp] theorem State.complete_busy (ak : BitVec 3) : (s.complete ak).busy = false := rfl
@[simp] theorem State.complete_seq (ak : BitVec 3) : (s.complete ak).seq = .idle := rfl
@[simp] theorem State.complete_rsp (ak : BitVec 3) : (s.complete ak).rsp = ⟨true, statusOk, ak, s.result⟩ := by
  unfold State.complete; split <;> rfl
@[simp] theorem State.complete_dapReady (ak : BitVec 3) :
    (s.complete ak).dapReady = (decide (s.current = some .powerUp) || s.dapReady) := by
  unfold State.complete; split <;> simp_all

end Sys2Proof.Machine
end

