-- ==== Sys2Proof/Laws/Wire.lean ====
section
/-!
SUPPORT. What wire events do when no reset and no channel failure is scheduled: the state after a list of events, the laws of
Ran, and one law for each of DriveBit, SampleBit and SetMode.
-/
namespace Sys2Proof.Machine

/-! ### Flow -/

@[simp] theorem Flow.andThen_on (s : State) (k : State → Flow) : (Flow.on s).andThen k = k s := rfl
@[simp] theorem Flow.andThen_off (s : State) (k : State → Flow) : (Flow.off s).andThen k = .off s := rfl
@[simp] theorem Flow.state_on (s : State) : (Flow.on s).state = s := rfl
@[simp] theorem Flow.state_off (s : State) : (Flow.off s).state = s := rfl

/-! ### Events -/

/-- What a wire event can do: block reset, a channel failure, or the event itself. -/
theorem State.event_cases (s : State) (k : State → Flow) :
    (due s.env.resets = true ∧ s.event k = .off s.blockReset) ∨
    (due s.env.resets = false ∧ s.linkFailsNow = true ∧ s.event k = .off s.passEvent.raiseTransportError) ∨
    (due s.env.resets = false ∧ s.linkFailsNow = false ∧ s.event k = k s.passEvent) := by
  unfold State.event
  cases h : due s.env.resets <;> cases h' : s.linkFailsNow <;> simp

theorem State.passEvent_quiet {s : State} (h : s.quiet) : s.passEvent = s := by
  obtain ⟨h1, h2⟩ := h
  unfold State.passEvent
  rw [h1, h2]
  obtain ⟨_, _, _, _, _, _, _, _, _, _, _, _, ⟨_, _, _, _, _⟩, _⟩ := s
  simp_all [countdown, elapse]

/-- Where no block reset is scheduled, instants leave the schedule alone. -/
theorem State.pass_quiet {s : State} (h : s.env.resets = []) (n : Nat) : s.pass n = s := by
  unfold State.pass
  rw [h]
  obtain ⟨_, _, _, _, _, _, _, _, _, _, _, _, ⟨_, _, _, _, _⟩, _⟩ := s
  simp_all [elapse]

/-- All a half period can do: block reset lands in it, or it passes. -/
theorem State.waitHalf_cases (s : State) :
    (∃ n, n < halfPeriod s.par ∧ s.waitHalf = .off (s.startTimer.runTimer n).blockReset) ∨ s.waitHalf = .on s.halfPassed := by
  unfold State.waitHalf
  split
  · rename_i n hn
    refine .inl ⟨n, ?_, rfl⟩
    cases hr : s.env.resets with
    | nil => simp [hr, lands] at hn
    | cons r rest =>
      simp only [hr, lands] at hn
      split at hn
      · cases hn; assumption
      · cases hn
  · exact .inr rfl

/-- A half period where no block reset is scheduled. -/
theorem State.waitHalf_quiet {s : State} (h : s.env.resets = []) : s.waitHalf = .on s.halfPassed := by
  simp [State.waitHalf, h, lands]

/-- Without a scheduled reset or failure an event happens. -/
theorem State.event_quiet {s : State} (h : s.quiet) (k : State → Flow) : s.event k = k s := by
  have hp := State.passEvent_quiet h
  obtain ⟨h1, h2⟩ := h
  simp [State.event, State.linkFailsNow, h1, h2, due, hp]

/-! ### Traces on the pins -/

@[simp] theorem Pins.play_nil (p : Pins) : p.play [] = p := rfl
@[simp] theorem Pins.play_cons (p : Pins) (e : Event) (es : List Event) : p.play (e :: es) = (p.after e).play es := rfl
@[simp] theorem Pins.wave_nil (p : Pins) : p.wave [] = [] := rfl
@[simp] theorem Pins.wave_cons (p : Pins) (e : Event) (es : List Event) :
    p.wave (e :: es) = p.during e ++ (p.after e).wave es := rfl

theorem Pins.play_append (p : Pins) (as bs : List Event) : p.play (as ++ bs) = (p.play as).play bs := by
  induction as generalizing p with
  | nil => rfl
  | cons e as ih => simp [ih]

theorem Pins.wave_append (p : Pins) (as bs : List Event) : p.wave (as ++ bs) = p.wave as ++ (p.play as).wave bs := by
  induction as generalizing p with
  | nil => rfl
  | cons e as ih => simp [ih]

@[simp] theorem bitCycles_nil : bitCycles [] = 0 := rfl
@[simp] theorem bitCycles_append (as bs : List Event) : bitCycles (as ++ bs) = bitCycles as + bitCycles bs :=
  List.countP_append
@[simp] theorem bitCycles_drive (b : Bool) (es : List Event) : bitCycles (.drive b :: es) = bitCycles es + 1 :=
  List.countP_cons_of_pos rfl
@[simp] theorem bitCycles_sample (b : Bool) (es : List Event) : bitCycles (.sample b :: es) = bitCycles es + 1 :=
  List.countP_cons_of_pos rfl
@[simp] theorem bitCycles_setMode (p : Pin) (m : Mode) (es : List Event) : bitCycles (.setMode p m :: es) = bitCycles es :=
  List.countP_cons_of_neg (by simp [Event.isCycle])
@[simp] theorem bitCycles_linkFail (es : List Event) : bitCycles (.linkFail :: es) = bitCycles es :=
  List.countP_cons_of_neg (by simp [Event.isCycle])
@[simp] theorem bitCycles_map_drive (bs : List Bool) : bitCycles (bs.map .drive) = bs.length := by
  induction bs with
  | nil => rfl
  | cons b bs ih => simp [ih]
@[simp] theorem bitCycles_map_sample (bs : List Bool) : bitCycles (bs.map .sample) = bs.length := by
  induction bs with
  | nil => rfl
  | cons b bs ih => simp [ih]
@[simp] theorem bitCycles_dioMode (a b : Bool) : bitCycles (dioMode a b) = 0 := by
  unfold dioMode; split <;> simp
@[simp] theorem bitCycles_clkMode (a b : Bool) : bitCycles (clkMode a b) = 0 := by
  unfold clkMode; split <;> simp

/-- Driven bits leave both modes, raise SWCLK and leave SWDIO at the last level driven. -/
theorem Pins.play_drive (p : Pins) (bs : List Bool) :
    p.play (bs.map .drive) =
      match bs.getLast? with
      | none => p
      | some b => ⟨p.swclkOe, true, p.swdioOe, b⟩ := by
  induction bs generalizing p with
  | nil => rfl
  | cons b bs ih =>
    cases bs with
    | nil => rfl
    | cons c cs =>
      rw [List.map_cons, Pins.play_cons, ih, List.getLast?_cons_cons]
      cases h : (c :: cs).getLast? with
      | none => simp at h
      | some x => rfl

/-- Sampled bits leave both modes and SWDIO's level, and raise SWCLK. -/
theorem Pins.play_sample (p : Pins) (bs : List Bool) :
    p.play (bs.map .sample) = if bs = [] then p else ⟨p.swclkOe, true, p.swdioOe, p.swdioO⟩ := by
  induction bs generalizing p with
  | nil => rfl
  | cons b bs ih =>
    rw [List.map_cons, Pins.play_cons, ih]
    cases bs <;> simp [Pins.after]

@[simp] theorem Pins.play_drive_swdioOe (p : Pins) (bs : List Bool) :
    (p.play (bs.map .drive)).swdioOe = p.swdioOe := by
  rw [Pins.play_drive]
  split <;> rfl

@[simp] theorem Pins.play_sample_swdioOe (p : Pins) (bs : List Bool) :
    (p.play (bs.map .sample)).swdioOe = p.swdioOe := by
  rw [Pins.play_sample]
  split <;> rfl

@[simp] theorem Pins.play_dioMode (p : Pins) (out : Bool) :
    p.play (dioMode p.swdioOe out) = { p with swdioOe := out } := by
  cases p with
  | mk a b c d => cases c <;> cases out <;> rfl

@[simp] theorem Pins.play_clkMode (p : Pins) (out : Bool) :
    p.play (clkMode p.swclkOe out) = { p with swclkOe := out } := by
  cases p with
  | mk a b c d => cases a <;> cases out <;> rfl

@[simp] theorem Pins.play_dioMode_swdioOe (p : Pins) (was out : Bool) (h : p.swdioOe = was) :
    (p.play (dioMode was out)).swdioOe = out := by
  subst h; simp

/-! ### Ran -/

theorem Ran.refl (s : State) : Ran s s [] := by
  constructor <;> simp

/-- Ran reads nothing of the first state but its pins, trace, waveform, elapsed time, timer and parameters, and nothing of the
second but the first five. -/
theorem Ran.of_eq {s s' u u' : State} {es : List Event} (h : Ran s u es)
    (hp : s'.pins = s.pins) (ht : s'.obs.trace = s.obs.trace) (hw : s'.obs.wave = s.obs.wave)
    (he : s'.obs.elapsed = s.obs.elapsed) (hm : s'.timer = s.timer) (hq : s'.par = s.par)
    (gp : u'.pins = u.pins) (gt : u'.obs.trace = u.obs.trace) (gw : u'.obs.wave = u.obs.wave)
    (ge : u'.obs.elapsed = u.obs.elapsed) (gm : u'.timer = u.timer) : Ran s' u' es := by
  obtain ⟨h1, h2, h3, h4, h5⟩ := h
  constructor <;> simp_all

theorem Ran.trans {s u v : State} {as bs : List Event} (h : Ran s u as) (g : Ran u v bs) (hp : u.par = s.par) :
    Ran s v (as ++ bs) where
  trace := by rw [g.trace, h.trace, List.append_assoc]
  pins := by rw [g.pins, h.pins, Pins.play_append]
  wave := by rw [g.wave, h.wave, h.pins, Pins.wave_append, List.append_assoc]
  elapsed := by rw [g.elapsed, h.elapsed, hp, bitCycles_append]; ring
  timer := by
    rw [g.timer, h.timer, bitCycles_append]
    by_cases ha : bitCycles as = 0 <;> by_cases hb : bitCycles bs = 0 <;> simp [ha, hb]

/-! ### The state after a list of events -/

/-- One event on a state, nothing else. -/
def State.playOne (s : State) (e : Event) : State :=
  { s with
    pins := s.pins.after e
    timer := if e.isCycle then 0 else s.timer
    obs := { s.obs with
      trace := s.obs.trace ++ [e]
      wave := s.obs.wave ++ s.pins.during e
      elapsed := s.obs.elapsed + if e.isCycle then 2 * halfPeriod s.par else 0 } }

/-- A state inside a frame that began in `s`: the events so far, the transient registers, the levels left, the position. -/
def State.within (s : State) (es : List Event) (d : Datapath) (ls : List Bool) (q : Seq) : State :=
  { es.foldl State.playOne s with dp := d, env := { s.env with levels := ls }, seq := q }

theorem State.foldl_playOne_ran (s : State) (es : List Event) : Ran s (es.foldl State.playOne s) es := by
  induction es generalizing s with
  | nil => exact Ran.refl s
  | cons e es ih =>
    have h : Ran s (s.playOne e) [e] := by
      constructor <;> cases e <;> simp [State.playOne, Event.isCycle]
    exact h.trans (ih _) rfl

theorem State.foldl_playOne_rest (s : State) (es : List Event) :
    ∃ p t o, es.foldl State.playOne s = { s with pins := p, timer := t, obs := o } ∧ o.frames = s.obs.frames := by
  induction es generalizing s with
  | nil => exact ⟨_, _, _, rfl, rfl⟩
  | cons e es ih =>
    obtain ⟨p, t, o, h, hf⟩ := ih (s.playOne e)
    exact ⟨p, t, o, by rw [List.foldl_cons, h]; rfl, hf⟩

section within
variable (s : State) (es : List Event) (d : Datapath) (ls : List Bool) (q : Seq)

@[simp] theorem State.within_dp : (s.within es d ls q).dp = d := rfl
@[simp] theorem State.within_seq : (s.within es d ls q).seq = q := rfl
@[simp] theorem State.within_env : (s.within es d ls q).env = { s.env with levels := ls } := rfl
theorem State.within_ran : Ran s (s.within es d ls q) es :=
  (s.foldl_playOne_ran es).of_eq rfl rfl rfl rfl rfl rfl rfl rfl rfl rfl rfl
@[simp] theorem State.within_pins : (s.within es d ls q).pins = s.pins.play es := (s.within_ran es d ls q).pins

theorem State.within_field {α : Type} (f : State → α)
    (h : ∀ (u : State) p t o d e q, f { u with pins := p, timer := t, obs := o, dp := d, env := e, seq := q } = f u) :
    f (s.within es d ls q) = f s := by
  obtain ⟨p, t, o, e, _⟩ := s.foldl_playOne_rest es
  unfold State.within
  rw [e]
  exact h s p t o _ _ _

@[simp] theorem State.within_linkUp : (s.within es d ls q).linkUp = s.linkUp :=
  s.within_field es d ls q State.linkUp fun _ _ _ _ _ _ _ => rfl
@[simp] theorem State.within_dapReady : (s.within es d ls q).dapReady = s.dapReady :=
  s.within_field es d ls q State.dapReady fun _ _ _ _ _ _ _ => rfl
@[simp] theorem State.within_cache : (s.within es d ls q).cache = s.cache :=
  s.within_field es d ls q State.cache fun _ _ _ _ _ _ _ => rfl
@[simp] theorem State.within_busy : (s.within es d ls q).busy = s.busy :=
  s.within_field es d ls q State.busy fun _ _ _ _ _ _ _ => rfl
@[simp] theorem State.within_rsp : (s.within es d ls q).rsp = s.rsp :=
  s.within_field es d ls q State.rsp fun _ _ _ _ _ _ _ => rfl
@[simp] theorem State.within_cmd : (s.within es d ls q).cmd = s.cmd :=
  s.within_field es d ls q State.cmd fun _ _ _ _ _ _ _ => rfl
@[simp] theorem State.within_result : (s.within es d ls q).result = s.result :=
  s.within_field es d ls q State.result fun _ _ _ _ _ _ _ => rfl
@[simp] theorem State.within_par : (s.within es d ls q).par = s.par :=
  s.within_field es d ls q State.par fun _ _ _ _ _ _ _ => rfl
@[simp] theorem State.within_frames : (s.within es d ls q).obs.frames = s.obs.frames := by
  obtain ⟨p, t, o, e, h⟩ := s.foldl_playOne_rest es
  unfold State.within
  rw [e]
  exact h

@[simp] theorem State.within_goto (q' : Seq) : (s.within es d ls q).goto q' = s.within es d ls q' := rfl
@[simp] theorem State.within_withDp (d' : Datapath) : (s.within es d ls q).withDp d' = s.within es d' ls q := rfl

theorem State.within_nil : s.within [] s.dp s.env.levels s.seq = s := rfl

theorem State.within_quiet (h : s.quiet) : (s.within es d ls q).quiet := h

/-- A single event appended. -/
theorem State.within_playOne (e : Event) :
    (s.within es d ls q).playOne e = s.within (es ++ [e]) d ls q := by
  simp [State.within, State.playOne, List.foldl_append]

end within

/-- A half period where no block reset is scheduled, written out. -/
theorem State.halfPassed_quiet {s : State} (h : s.env.resets = []) : s.halfPassed =
    { s with timer := 0, obs := { s.obs with wave := s.obs.wave ++ [s.pins], elapsed := s.obs.elapsed + halfPeriod s.par } } := by
  rw [State.halfPassed, State.pass_quiet (by exact h)]
  simp [State.runTimer, State.startTimer]

theorem State.driveCycle_playOne {s : State} (h : s.env.resets = []) (b : Bool) :
    s.driveCycle b = .on (s.playOne (.drive b)) := by
  have h1 : (s.driveLow b).env.resets = [] := h
  simp only [State.driveCycle, State.waitHalf_quiet h1, State.halfPassed_quiet h1, Flow.andThen_on]
  rw [State.waitHalf_quiet (by exact h), State.halfPassed_quiet (by exact h)]
  simp only [Flow.andThen_on, State.clockTo, State.emit, State.driveLow,
    State.playOne, Pins.after, Pins.during, Event.isCycle, if_true]
  simp [List.append_assoc]
  ring

/-- `DriveBit(b)` when nothing is scheduled. -/
theorem State.within_driveBit {s : State} (h : s.quiet) (es : List Event) (d : Datapath) (ls : List Bool) (q : Seq)
    (b : Bool) : (s.within es d ls q).driveBit b = .on (s.within (es ++ [.drive b]) d ls q) := by
  rw [State.driveBit, State.event_quiet (s.within_quiet es d ls q h), State.driveCycle_playOne (by exact h.1), State.within_playOne]

/-- `SampleBit()` when nothing is scheduled, SWDIO is in input mode and a level is listed. -/
theorem State.within_sampleBit {s : State} (h : s.quiet) (es : List Event) (d : Datapath) (ls : List Bool) (q : Seq)
    (b : Bool) (k : Bool → State → Flow) (hi : (s.pins.play es).swdioOe = false) :
    (s.within es d (b :: ls) q).sampleBit k = k b (s.within (es ++ [.sample b]) d ls q) := by
  have hl : ((s.within es d (b :: ls) q).clockTo false).halfPassed.level = b := by simp [State.level, hi]
  have h1 : ((s.within es d (b :: ls) q).clockTo false).env.resets = [] := h.1
  rw [State.sampleBit, State.event_quiet (s.within_quiet es d _ q h), State.sampleCycle, State.waitHalf_quiet h1,
    Flow.andThen_on, hl, ← State.within_playOne]
  have h2 : ((s.within es d (b :: ls) q).clockTo false).halfPassed.takeLevel.env.resets = [] := by
    rw [State.halfPassed_quiet h1]
    simp only [State.takeLevel, State.useLevel]
    repeat' split
    all_goals exact h1
  rw [State.waitHalf_quiet h2, Flow.andThen_on, State.halfPassed_quiet h2, State.halfPassed_quiet h1]
  simp only [State.takeLevel, State.useLevel, State.clockTo, State.emit, State.playOne, Pins.after, Pins.during, Event.isCycle,
    if_true, State.within_pins, State.within_env, hi]
  simp [State.within, List.append_assoc]
  ring_nf

/-- `SetMode(SWDIO, m)` when nothing is scheduled. -/
theorem State.within_setMode {s : State} (h : s.quiet) (es : List Event) (d : Datapath) (ls : List Bool) (q : Seq)
    (out : Bool) : (s.within es d ls q).setMode .swdio out =
      .on (s.within (es ++ dioMode (s.pins.play es).swdioOe out) d ls q) := by
  unfold State.setMode dioMode
  simp only [State.within_pins, Pins.isOut]
  split
  · simp
  · rw [State.event_quiet (s.within_quiet es d ls q h), ← State.within_playOne]
    cases out <;> simp [State.emit, State.playOne, Pins.after, Pins.during, Event.isCycle, modeOf]

/-- `SetMode(SWCLK, m)` when nothing is scheduled. -/
theorem State.within_setModeClk {s : State} (h : s.quiet) (es : List Event) (d : Datapath) (ls : List Bool) (q : Seq)
    (out : Bool) : (s.within es d ls q).setMode .swclk out =
      .on (s.within (es ++ clkMode (s.pins.play es).swclkOe out) d ls q) := by
  unfold State.setMode clkMode
  simp only [State.within_pins, Pins.isOut]
  split
  · simp
  · rw [State.event_quiet (s.within_quiet es d ls q h), ← State.within_playOne]
    cases out <;> simp [State.emit, State.playOne, Pins.after, Pins.during, Event.isCycle, modeOf]

end Sys2Proof.Machine
end

