-- ==== Sys2Proof/Laws/Frame.lean ====
section
/-!
SUPPORT. What the sequencer does with a frame, and with a line reset, when no reset and no channel failure is scheduled: one
law for each phase, then for whole frames.
-/
namespace Sys2Proof.Machine

theorem State.runFrame_on {s t : State} (h : s.tickFlow = .on t) (n : Nat) :
    State.runFrame (n + 1) s = State.runFrame n t := by rw [State.runFrame, h]

theorem State.runFrame_off {s t : State} (h : s.tickFlow = .off t) (n : Nat) : State.runFrame (n + 1) s = t := by
  rw [State.runFrame, h]

section phases
variable {s : State} (h : s.quiet) (k : Nat) (d : Datapath)
include h

/-- Header bits `n` to 7. -/
theorem State.run_header_from (ls : List Bool) (fuel j n : Nat) (es : List Event) (hn : 0 < n) (hj : n + (j + 1) = 8) :
    State.runFrame (fuel + (j + 1)) (s.within es d ls (.pos k .header n)) =
      State.runFrame fuel (s.within (es ++ ((List.range' n (j + 1)).map d.hdr.getLsbD).map .drive) d ls
        (.pos k .trn1 0)) := by
  induction j generalizing n es with
  | zero =>
    obtain rfl : n = 7 := by omega
    apply State.runFrame_on
    simp [State.tickFlow, State.tickHeader, State.setModeFirst, State.within_driveBit h, nextPos]
  | succ j ih =>
    have ht : (s.within es d ls (.pos k .header n)).tickFlow =
        .on (s.within (es ++ [.drive (d.hdr.getLsbD n)]) d ls (.pos k .header (n + 1))) := by
      have h8 : n + 1 < 8 := by omega
      simp [State.tickFlow, State.tickHeader, State.setModeFirst, State.within_driveBit h, nextPos,
        h8, Nat.ne_of_gt hn]
    rw [show fuel + (j + 1 + 1) = fuel + (j + 1) + 1 from rfl, State.runFrame_on ht, ih (n + 1) _ (by omega) (by omega)]
    simp [List.range'_succ]

/-- SendHeader: 8 bit cycles (spec/41_wire_codec.md R128). -/
theorem State.run_header (ls : List Bool) (fuel : Nat) (es : List Event) :
    State.runFrame (fuel + 8) (s.within es d ls (.pos k .header 0)) =
      State.runFrame fuel (s.within (es ++ dioMode (s.pins.play es).swdioOe true ++ (serialise d.hdr).map .drive) d ls
        (.pos k .trn1 0)) := by
  have ht : (s.within es d ls (.pos k .header 0)).tickFlow =
      .on (s.within (es ++ dioMode (s.pins.play es).swdioOe true ++ [.drive (d.hdr.getLsbD 0)]) d ls
        (.pos k .header 1)) := by
    simp [State.tickFlow, State.tickHeader, State.setModeFirst, State.within_setMode h, State.within_driveBit h, nextPos]
  rw [show fuel + 8 = fuel + (6 + 1) + 1 from rfl, State.runFrame_on ht,
    State.run_header_from h k d ls fuel 6 1 _ (by omega) (by omega)]
  simp [serialise_eq_range', List.range'_succ]

/-- TRN1: one bit cycle (R129). -/
theorem State.run_trn1 (t : Bool) (ls : List Bool) (fuel : Nat) (es : List Event) :
    State.runFrame (fuel + 1) (s.within es d (t :: ls) (.pos k .trn1 0)) =
      State.runFrame fuel (s.within (es ++ dioMode (s.pins.play es).swdioOe false ++ [.sample t]) d ls (.pos k .ack 0)) := by
  apply State.runFrame_on
  simp only [State.tickFlow, State.within_seq, State.tickTrn1, State.within_setMode h, Flow.andThen_on]
  rw [State.within_sampleBit h _ _ _ _ _ _ (by simp [Pins.play_append])]
  simp

/-- ACK: three bit cycles, then the test (R129). -/
theorem State.run_ack (ack : BitVec 3) (ls : List Bool) (fuel : Nat) (es : List Event)
    (hi : (s.pins.play es).swdioOe = false) :
    State.runFrame (fuel + 3) (s.within es d (serialise ack ++ ls) (.pos k .ack 0)) =
      match (s.within (es ++ (serialise ack).map .sample) { d with ack := ack } ls (.pos k .ack 2)).ackTest k with
      | .on t => State.runFrame fuel t
      | .off t => t := by
  have hs : serialise ack = [ack.getLsbD 0, ack.getLsbD 1, ack.getLsbD 2] := rfl
  have hset : setBit (setBit (setBit d.ack 0 (ack.getLsbD 0)) 1 (ack.getLsbD 1)) 2 (ack.getLsbD 2) = ack := by
    have := setBits_serialise ack d.ack
    simpa [hs, setBits] using this
  rw [hs]
  simp only [List.cons_append, List.nil_append]
  have h1 : ∀ b l, (s.within es d (b :: l) (.pos k .ack 0)).tickFlow =
      .on (s.within (es ++ [.sample b]) { d with ack := setBit d.ack 0 b } l (.pos k .ack 1)) := by
    intro b l
    simp only [State.tickFlow, State.within_seq, State.tickAck]
    rw [State.within_sampleBit h _ _ _ _ _ _ hi]
    simp
  have h2 : ∀ b c l (d : Datapath), (s.within (es ++ [.sample b]) d (c :: l) (.pos k .ack 1)).tickFlow =
      .on (s.within (es ++ [.sample b] ++ [.sample c]) { d with ack := setBit d.ack 1 c } l (.pos k .ack 2)) := by
    intro b c l d
    simp only [State.tickFlow, State.within_seq, State.tickAck]
    rw [State.within_sampleBit h _ _ _ _ _ _ (by simpa [Pins.play_append, Pins.after] using hi)]
    simp
  have h3 : ∀ b c e l (d : Datapath), (s.within (es ++ [.sample b] ++ [.sample c]) d (e :: l) (.pos k .ack 2)).tickFlow =
      (s.within (es ++ [.sample b] ++ [.sample c] ++ [.sample e]) { d with ack := setBit d.ack 2 e } l (.pos k .ack 2)).ackTest k := by
    intro b c e l d
    simp only [State.tickFlow, State.within_seq, State.tickAck]
    rw [State.within_sampleBit h _ _ _ _ _ _ (by simpa [Pins.play_append, Pins.after] using hi)]
    simp
  rw [show fuel + 3 = fuel + 1 + 1 + 1 from rfl, State.runFrame_on (h1 _ _), State.runFrame_on (h2 _ _ _ _),
    State.runFrame, h3, hset]
  simp <;>
    cases (State.within s (es ++ [.sample (ack.getLsbD 0), .sample (ack.getLsbD 1), .sample (ack.getLsbD 2)])
      { d with ack := ack } ls (.pos k .ack 2)).ackTest k <;> rfl

/-- The rest of a read's data from bit `n`. -/
theorem State.run_dataRead_from (hr : d.reading = true) (bs ls : List Bool) (fuel n : Nat) (es : List Event)
    (hi : (s.pins.play es).swdioOe = false) (hn : n + bs.length = 32) (hb : bs ≠ []) :
    State.runFrame (fuel + bs.length) (s.within es d (bs ++ ls) (.pos k .data n)) =
      State.runFrame fuel (s.within (es ++ bs.map .sample) { d with rx := setBits d.rx n bs } ls (.pos k .parity 0)) := by
  induction bs generalizing n es d with
  | nil => exact absurd rfl hb
  | cons b bs ih =>
    have ht : (s.within es d (b :: (bs ++ ls)) (.pos k .data n)).tickFlow =
        .on (s.within (es ++ [.sample b]) { d with rx := setBit d.rx n b } (bs ++ ls) (nextPos k .data n 32 .parity)) := by
      simp only [State.tickFlow, State.within_seq, State.tickData, State.within_dp, hr, if_true]
      rw [State.within_sampleBit h _ _ _ _ _ _ hi]
      simp
    rw [List.length_cons, ← Nat.add_assoc, List.cons_append, State.runFrame_on ht]
    cases bs with
    | nil =>
      obtain rfl : n = 31 := by simpa using hn
      simp [nextPos, setBits]
    | cons c cs =>
      have hlt : n + 1 < 32 := by simp at hn; omega
      rw [nextPos, if_pos hlt, ih { d with rx := setBit d.rx n b } hr (n + 1) _
        (by simpa [Pins.play_append, Pins.after] using hi) (by simp at hn ⊢; omega) (by simp)]
      simp [setBits]

/-- A read's data: 32 bit cycles (R130). -/
theorem State.run_dataRead (hr : d.reading = true) (v : Word) (ls : List Bool) (fuel : Nat) (es : List Event)
    (hi : (s.pins.play es).swdioOe = false) :
    State.runFrame (fuel + 32) (s.within es d (serialise v ++ ls) (.pos k .data 0)) =
      State.runFrame fuel (s.within (es ++ (serialise v).map .sample) { d with rx := v } ls (.pos k .parity 0)) := by
  have := State.run_dataRead_from h k d hr (serialise v) ls fuel 0 es hi (by simp) (by
    intro hc; have := length_serialise v; simp [hc] at this)
  rw [length_serialise, setBits_serialise] at this
  exact this

/-- The rest of a write's data from bit `n`. -/
theorem State.run_dataWrite_from (hr : d.reading = false) (ls : List Bool) (fuel j n : Nat) (es : List Event) (hn : 0 < n)
    (hj : n + (j + 1) = 32) :
    State.runFrame (fuel + (j + 1)) (s.within es d ls (.pos k .data n)) =
      State.runFrame fuel (s.within (es ++ ((List.range' n (j + 1)).map d.tx.getLsbD).map .drive) d ls
        (.pos k .parity 0)) := by
  induction j generalizing n es with
  | zero =>
    obtain rfl : n = 31 := by omega
    apply State.runFrame_on
    simp [State.tickFlow, State.tickData, hr, State.setModeFirst, State.within_driveBit h, nextPos]
  | succ j ih =>
    have ht : (s.within es d ls (.pos k .data n)).tickFlow =
        .on (s.within (es ++ [.drive (d.tx.getLsbD n)]) d ls (.pos k .data (n + 1))) := by
      have h8 : n + 1 < 32 := by omega
      simp [State.tickFlow, State.tickData, hr, State.setModeFirst, State.within_driveBit h, nextPos, h8,
        Nat.ne_of_gt hn]
    rw [show fuel + (j + 1 + 1) = fuel + (j + 1) + 1 from rfl, State.runFrame_on ht, ih (n + 1) _ (by omega) (by omega)]
    simp [List.range'_succ]

/-- A write's data: 32 bit cycles (R134). -/
theorem State.run_dataWrite (hr : d.reading = false) (ls : List Bool) (fuel : Nat) (es : List Event) :
    State.runFrame (fuel + 32) (s.within es d ls (.pos k .data 0)) =
      State.runFrame fuel (s.within (es ++ dioMode (s.pins.play es).swdioOe true ++ (serialise d.tx).map .drive) d ls
        (.pos k .parity 0)) := by
  have ht : (s.within es d ls (.pos k .data 0)).tickFlow =
      .on (s.within (es ++ dioMode (s.pins.play es).swdioOe true ++ [.drive (d.tx.getLsbD 0)]) d ls
        (.pos k .data 1)) := by
    simp [State.tickFlow, State.tickData, hr, State.setModeFirst, State.within_setMode h, State.within_driveBit h,
      nextPos]
  rw [show fuel + 32 = fuel + (30 + 1) + 1 from rfl, State.runFrame_on ht,
    State.run_dataWrite_from h k d hr ls fuel 30 1 _ (by omega) (by omega)]
  simp [serialise_eq_range', List.range'_succ]

end phases

/-- RnW of a header (spec/30_encoding.md R95). -/
@[simp] theorem header_rnw (r : Request) : r.header.getLsbD 2 = r.rnw := by
  obtain ⟨p, w, a⟩ := r
  revert p w a
  decide

@[simp] theorem header_getElem_two (r : Request) : r.header[2] = r.rnw := header_rnw r

/-- SWDIO is in input mode after the ACK (spec/41_wire_codec.md R129). -/
theorem requestTrace_swdioOe (p : Pins) (r : Request) (t : Bool) (ack : BitVec 3) :
    (p.play (requestTrace p.swdioOe r t ack)).swdioOe = false := by
  simp only [requestTrace, Pins.play_append, Pins.play_sample_swdioOe]
  apply Pins.play_dioMode_swdioOe
  simp

section frames
variable {s : State} (h : s.quiet) (k : Nat) (d : Datapath) (r : Request) (hd : d.hdr = r.header)
include h hd

/-- SendHeader and ReadAck up to the ACK test (spec/41_wire_codec.md R128, R129). -/
theorem State.run_request (t : Bool) (ack : BitVec 3) (ls : List Bool) (fuel : Nat) :
    State.runFrame (fuel + 12) (s.within [] d (ackLevels t ack ++ ls) (.pos k .header 0)) =
      match (s.within (requestTrace s.pins.swdioOe r t ack) { d with ack := ack } ls (.pos k .ack 2)).ackTest k with
      | .on t => State.runFrame fuel t
      | .off t => t := by
  have e : (s.pins.play (dioMode s.pins.swdioOe true ++ (serialise d.hdr).map .drive)).swdioOe = true := by
    rw [Pins.play_append, Pins.play_drive_swdioOe, Pins.play_dioMode]
  have hi : (s.pins.play (dioMode s.pins.swdioOe true ++ (serialise d.hdr).map .drive ++ dioMode true false ++
      [.sample t])).swdioOe = false := by
    rw [Pins.play_append, Pins.play_cons, Pins.play_nil]
    simp only [Pins.after]
    rw [Pins.play_append]
    exact Pins.play_dioMode_swdioOe _ _ _ e
  rw [show fuel + 12 = fuel + 3 + 1 + 8 from rfl, State.run_header h, ackLevels, List.cons_append, State.run_trn1 h,
    Pins.play_nil, List.nil_append, e, State.run_ack h _ _ _ _ _ _ hi, hd]
  simp [requestTrace, ackLevels]

/-- A frame whose ACK is not OK: 12 bit cycles, ACK_FAULT (R129, R137). -/
theorem State.run_ackFault (t : Bool) (ack : BitVec 3) (ha : ack ≠ ackOk) (ls : List Bool) (fuel : Nat) :
    State.runFrame (fuel + 12) (s.within [] d (ackLevels t ack ++ ls) (.pos k .header 0)) =
      (s.within (requestTrace s.pins.swdioOe r t ack) { d with ack := ack } ls (.pos k .ack 2)).raiseAckFault := by
  rw [State.run_request h k d r hd]
  simp [State.ackTest, ha]

/-- A read frame with ACK OK up to its parity test: 47 bit cycles (R130). -/
theorem State.run_read (hr : r.rnw = true) (t : Bool) (v : Word) (p i0 i1 : Bool) (ls : List Bool) (fuel : Nat) :
    State.runFrame (fuel + 47) (s.within [] d (readLevels t v p i0 i1 ++ ls) (.pos k .header 0)) =
      match (s.within (readTrace s.pins.swdioOe r t v p i0 i1) { d with ack := ackOk, rx := v, par := p } ls
        (.pos k .idle 1)).parityTest k with
      | .on t => State.runFrame fuel t
      | .off t => t := by
  have hrd : ∀ d' : Datapath, d'.hdr = d.hdr → d'.reading = true := by
    intro d' h'; rw [Datapath.reading, h', hd, header_rnw, hr]
  have hi := requestTrace_swdioOe s.pins r t ackOk
  rw [readLevels, List.append_assoc, List.append_assoc, show fuel + 47 = fuel + 35 + 12 from rfl,
    State.run_request h k d r hd]
  simp only [State.ackTest, State.within_dp, if_true, hrd { d with ack := ackOk } rfl, State.within_goto]
  rw [show fuel + 35 = fuel + 3 + 32 from rfl, State.run_dataRead h k _ (hrd { d with ack := ackOk } rfl) _ _ _ _ hi]
  have hi2 : (s.pins.play (requestTrace s.pins.swdioOe r t ackOk ++ (serialise v).map .sample)).swdioOe = false := by
    rw [Pins.play_append, Pins.play_sample_swdioOe, hi]
  have hp : ∀ es d' (l : List Bool), (s.pins.play es).swdioOe = false → d'.hdr = d.hdr →
      (s.within es d' (p :: l) (.pos k .parity 0)).tickFlow =
        .on (s.within (es ++ [.sample p]) { d' with par := p } l (.pos k .idle 0)) := by
    intro es d' l he hh
    simp only [State.tickFlow, State.within_seq, State.tickParity, State.within_dp, hrd d' hh, if_true]
    rw [State.within_sampleBit h _ _ _ _ _ _ he]
    simp
  have hq : ∀ es d' (l : List Bool), (s.pins.play es).swdioOe = false → d'.hdr = d.hdr →
      (s.within es d' (i0 :: l) (.pos k .idle 0)).tickFlow =
        .on (s.within (es ++ [.sample i0]) d' l (.pos k .idle 1)) := by
    intro es d' l he hh
    simp only [State.tickFlow, State.within_seq, State.tickIdle, State.within_dp, hrd d' hh, if_true]
    rw [State.within_sampleBit h _ _ _ _ _ _ he]
    simp
  have hs : ∀ es d' (l : List Bool), (s.pins.play es).swdioOe = false → d'.hdr = d.hdr →
      (s.within es d' (i1 :: l) (.pos k .idle 1)).tickFlow =
        (s.within (es ++ [.sample i1]) d' l (.pos k .idle 1)).parityTest k := by
    intro es d' l he hh
    simp only [State.tickFlow, State.within_seq, State.tickIdle, State.within_dp, hrd d' hh, if_true]
    rw [State.within_sampleBit h _ _ _ _ _ _ he]
    simp
  rw [show fuel + 3 = fuel + 1 + 1 + 1 from rfl]
  simp only [List.cons_append, List.nil_append]
  rw [State.runFrame_on (hp _ { d with ack := ackOk, rx := v } _ hi2 rfl),
    State.runFrame_on (hq _ { d with ack := ackOk, rx := v, par := p } _ ?_ rfl), State.runFrame,
    hs _ { d with ack := ackOk, rx := v, par := p } _ ?_ rfl]
  · simp [readTrace] <;> rfl
  · simpa [Pins.play_append, Pins.after] using hi2
  · simpa [Pins.play_append, Pins.after] using hi2

/-- A write frame with ACK OK: 47 bit cycles (R134). -/
theorem State.run_write (hr : r.rnw = false) (t0 t1 : Bool) (ls : List Bool) (fuel : Nat) :
    State.runFrame (fuel + 47) (s.within [] d (writeLevels t0 t1 ++ ls) (.pos k .header 0)) =
      (s.within (writeTrace s.pins.swdioOe r d.tx t0 t1) { d with ack := ackOk } ls (.pos k .idle 0)).endFrame k := by
  have hrd : ∀ d' : Datapath, d'.hdr = d.hdr → d'.reading = false := by
    intro d' h'; rw [Datapath.reading, h', hd, header_rnw, hr]
  have hi := requestTrace_swdioOe s.pins r t0 ackOk
  rw [writeLevels, List.append_assoc, show fuel + 47 = fuel + 35 + 12 from rfl, State.run_request h k d r hd]
  simp only [State.ackTest, State.within_dp, if_true, hrd { d with ack := ackOk } rfl, State.within_goto]
  have ht : (s.within (requestTrace s.pins.swdioOe r t0 ackOk) { d with ack := ackOk } (t1 :: ls) (.pos k .trn2 0)).tickFlow =
      .on (s.within (requestTrace s.pins.swdioOe r t0 ackOk ++ [.sample t1]) { d with ack := ackOk } ls (.pos k .data 0)) := by
    simp only [State.tickFlow, State.within_seq, State.tickTrn2]
    rw [State.within_sampleBit h _ _ _ _ _ _ hi]
    simp
  have hi2 : (s.pins.play (requestTrace s.pins.swdioOe r t0 ackOk ++ [.sample t1])).swdioOe = false := by
    simpa [Pins.play_append, Pins.after] using hi
  have hp : ∀ es (d' : Datapath), d'.hdr = d.hdr → (s.within es d' ls (.pos k .parity 0)).tickFlow =
      .on (s.within (es ++ [.drive (parity32 d'.tx)]) d' ls (.pos k .idle 0)) := by
    intro es d' hh
    simp [State.tickFlow, State.tickParity, hrd d' hh, State.within_driveBit h]
  have hq : ∀ es (d' : Datapath), d'.hdr = d.hdr → (s.within es d' ls (.pos k .idle 0)).tickFlow =
      .off ((s.within (es ++ [.drive false]) d' ls (.pos k .idle 0)).endFrame k) := by
    intro es d' hh
    simp [State.tickFlow, State.tickIdle, hrd d' hh, State.within_driveBit h]
  rw [show fuel + 35 = fuel + 2 + 32 + 1 from rfl]
  simp only [Bool.false_eq_true, if_false, List.cons_append, List.nil_append]
  rw [State.runFrame_on ht, State.run_dataWrite h k _ (hrd { d with ack := ackOk } rfl), hi2,
    show fuel + 2 = fuel + 1 + 1 from rfl, State.runFrame_on (hp _ { d with ack := ackOk } rfl),
    State.runFrame_off (hq _ { d with ack := ackOk } rfl)]
  simp [writeTrace]

end frames

/-! ### The line reset -/

section lineReset
variable {s : State} (h : s.quiet) (d : Datapath) (ls : List Bool)
include h

/-- Bits `n` to 63 of the ones. -/
theorem State.run_ones_from (k fuel j n : Nat) (es : List Event) (hn : 0 < n) (hj : n + (j + 1) = 64) :
    State.runFrame (fuel + (j + 1)) (s.within es d ls (.pos k .ones n)) =
      State.runFrame fuel (s.within (es ++ (List.replicate (j + 1) true).map .drive) d ls (.pos k .magic 0)) := by
  induction j generalizing n es with
  | zero =>
    obtain rfl : n = 63 := by omega
    apply State.runFrame_on
    simp [State.tickFlow, State.tickOnes, State.setModeFirst, State.within_driveBit h, nextPos, lineResetOnes]
  | succ j ih =>
    have ht : (s.within es d ls (.pos k .ones n)).tickFlow =
        .on (s.within (es ++ [.drive true]) d ls (.pos k .ones (n + 1))) := by
      have h8 : n + 1 < 64 := by omega
      simp [State.tickFlow, State.tickOnes, State.setModeFirst, State.within_driveBit h, nextPos, h8, lineResetOnes,
        Nat.ne_of_gt hn]
    rw [show fuel + (j + 1 + 1) = fuel + (j + 1) + 1 from rfl, State.runFrame_on ht, ih (n + 1) _ (by omega) (by omega)]
    simp [List.replicate_succ]

/-- Bits `n` to 15 of the magic. -/
theorem State.run_magic_from (k fuel j n : Nat) (es : List Event) (hj : n + (j + 1) = 16) :
    State.runFrame (fuel + (j + 1)) (s.within es d ls (.pos k .magic n)) =
      State.runFrame fuel (s.within (es ++ (magicBits.drop n).map .drive) d ls (.pos k .idleSync 0)) := by
  have hm : magicBits.length = 16 := by simp [magicBits]
  induction j generalizing n es with
  | zero =>
    obtain rfl : n = 15 := by omega
    apply State.runFrame_on
    have hd : magicBits.drop 15 = [magicBits.getD 15 false] := by decide
    simp [State.tickFlow, State.tickMagic, State.within_driveBit h, nextPos, hd]
  | succ j ih =>
    have ht : (s.within es d ls (.pos k .magic n)).tickFlow =
        .on (s.within (es ++ [.drive (magicBits.getD n false)]) d ls (.pos k .magic (n + 1))) := by
      have h8 : n + 1 < 16 := by omega
      simp [State.tickFlow, State.tickMagic, State.within_driveBit h, nextPos, h8]
    rw [show fuel + (j + 1 + 1) = fuel + (j + 1) + 1 from rfl, State.runFrame_on ht, ih (n + 1) _ (by omega)]
    have hlt : n < magicBits.length := by omega
    have hg : magicBits.getD n false = magicBits[n] := by simp [List.getD_eq_getElem?_getD, hlt]
    rw [List.drop_eq_getElem_cons hlt, hg, List.map_cons, List.append_assoc, List.cons_append, List.nil_append]

/-- Bits `n` to 15 of the idle sync, and the end of the line reset. -/
theorem State.run_idleSync_from (k fuel j n : Nat) (es : List Event) (hj : n + (j + 1) = 16) :
    State.runFrame (fuel + (j + 1)) (s.within es d ls (.pos k .idleSync n)) =
      (s.within (es ++ (List.replicate (j + 1) false).map .drive) d ls (.pos k .idleSync 15)).endLineReset := by
  induction j generalizing n es with
  | zero =>
    obtain rfl : n = 15 := by omega
    apply State.runFrame_off
    simp [State.tickFlow, State.tickIdleSync, State.within_driveBit h]
  | succ j ih =>
    have ht : (s.within es d ls (.pos k .idleSync n)).tickFlow =
        .on (s.within (es ++ [.drive false]) d ls (.pos k .idleSync (n + 1))) := by
      have h8 : n + 1 < 16 := by omega
      simp [State.tickFlow, State.tickIdleSync, State.within_driveBit h, h8]
    rw [show fuel + (j + 1 + 1) = fuel + (j + 1) + 1 from rfl, State.runFrame_on ht, ih (n + 1) _ (by omega)]
    simp [List.replicate_succ]

/-- The line reset: 96 bit cycles (spec/41_wire_codec.md R126). -/
theorem State.run_lineReset (k fuel : Nat) :
    State.runFrame (fuel + 96) (s.within [] d ls (.pos k .ones 0)) =
      (s.within (lineResetTrace s.pins.swclkOe s.pins.swdioOe) d ls (.pos k .idleSync 15)).endLineReset := by
  have ht : (s.within [] d ls (.pos k .ones 0)).tickFlow =
      .on (s.within (clkMode s.pins.swclkOe true ++ dioMode s.pins.swdioOe true ++ [.drive true]) d ls
        (.pos k .ones 1)) := by
    simp [State.tickFlow, State.tickOnes, State.setModeFirst, State.within_setModeClk h, State.within_setMode h,
      State.within_driveBit h, nextPos, lineResetOnes]
  rw [show fuel + 96 = fuel + (15 + 1) + (15 + 1) + (62 + 1) + 1 from rfl, State.runFrame_on ht,
    State.run_ones_from h d ls k _ 62 1 _ (by omega) (by omega), State.run_magic_from h d ls k _ 15 0 _ (by omega),
    State.run_idleSync_from h d ls k _ 15 0 _ (by omega)]
  have hm : magicBits = [false, true, true, true, true, false, false, true] ++
      [true, true, true, false, false, true, true, true] := by decide
  rw [lineResetTrace, List.drop_zero, hm]
  simp [List.replicate_succ]

end lineReset

end Sys2Proof.Machine
end

