-- ==== Sys2Proof/Laws/Command.lean ====
section
/-!
SUPPORT. How a command runs through its list of frames when no reset and no channel failure is scheduled: one law for each kind
of entry and each way its frame can end.
-/
namespace Sys2Proof.Machine

/-- From `s` to `u` the wire showed `es`, the levels left are `ls`, the frames `fs` ended, and apart from the response, the
result, the cache, the transient registers and the position nothing changed. -/
structure Did (s u : State) (es : List Event) (ls : List Bool) (fs : List FrameRecord) : Prop where
  ran : Ran s u es
  levels : u.env.levels = ls
  outside : SameOutside s u
  records : u.obs.frames = s.obs.frames ++ fs
  linkUp : u.linkUp = s.linkUp
  dapReady : u.dapReady = s.dapReady
  cmd : u.cmd = s.cmd

theorem SameOutside.refl (s : State) : SameOutside s s := ⟨rfl, rfl, rfl, rfl⟩

theorem SameOutside.trans {s u v : State} (h : SameOutside s u) (g : SameOutside u v) : SameOutside s v :=
  ⟨g.par.trans h.par, g.offers.trans h.offers, g.resets.trans h.resets, g.linkFaults.trans h.linkFaults⟩

theorem SameOutside.quiet {s u : State} (h : SameOutside s u) (hq : s.quiet) : u.quiet :=
  ⟨h.resets.trans hq.1, h.linkFaults.trans hq.2⟩

theorem Did.trans {s u v : State} {es es' : List Event} {ls ls' : List Bool} {fs fs' : List FrameRecord}
    (h : Did s u es ls fs) (g : Did u v es' ls' fs') : Did s v (es ++ es') ls' (fs ++ fs') where
  ran := h.ran.trans g.ran h.outside.par
  levels := g.levels
  outside := h.outside.trans g.outside
  records := by rw [g.records, h.records, List.append_assoc]
  linkUp := g.linkUp.trans h.linkUp
  dapReady := g.dapReady.trans h.dapReady
  cmd := g.cmd.trans h.cmd

theorem Did.quiet {s u : State} {es : List Event} {ls : List Bool} {fs : List FrameRecord} (h : Did s u es ls fs)
    (hq : s.quiet) : u.quiet := h.outside.quiet hq

theorem State.frames_eq {s u : State} (hc : u.cmd = s.cmd) (hp : u.par = s.par) : u.frames = s.frames := by
  unfold State.frames State.current
  rw [hc, hp]

theorem Did.frames {s u : State} {es : List Event} {ls : List Bool} {fs : List FrameRecord} (h : Did s u es ls fs) :
    u.frames = s.frames := State.frames_eq h.cmd h.outside.par

theorem State.frameOp_of_seq {s : State} {k : Nat} {ph : Phase} {n : Nat} (h : s.seq = .pos k ph n) :
    s.frameOp = s.frames[k]? := by
  unfold State.frameOp; rw [h]

theorem State.runFrames_idle {s : State} (h : s.seq = .idle) (n : Nat) : State.runFrames n s = s := by
  cases n with
  | zero => rfl
  | succ n => rw [State.runFrames, h]

theorem State.runFrames_pos {s : State} {k : Nat} {ph : Phase} {m : Nat} (h : s.seq = .pos k ph m) (n : Nat) :
    State.runFrames (n + 1) s = State.runFrames n (State.runFrame frameFuel s) := by
  rw [State.runFrames, h]

/-- Entering an entry that emits a frame starts it. -/
theorem State.enter_load {s : State} {k : Nat} {op : FrameOp} (hk : s.frames[k]? = some op)
    (hm : op.hits s.cache = false) (ack : BitVec 3) :
    State.enter (s.frames.drop k) k ack s = s.startFrame k op.request op.data := by
  obtain ⟨hlt, he⟩ := List.getElem?_eq_some_iff.mp hk
  rw [List.drop_eq_getElem_cons hlt, he, State.enter, hm]
  simp

/-- Entering a bank selection that hits the cache passes on to the next entry. -/
theorem State.enter_hit {s : State} {k : Nat} {op : FrameOp} (hk : s.frames[k]? = some op)
    (hm : op.hits s.cache = true) (ack : BitVec 3) :
    State.enter (s.frames.drop k) k ack s = State.enter (s.frames.drop (k + 1)) (k + 1) ack s := by
  obtain ⟨hlt, he⟩ := List.getElem?_eq_some_iff.mp hk
  rw [List.drop_eq_getElem_cons hlt, he, State.enter, hm]
  simp

/-- With no entry left the command completes. -/
theorem State.enter_end {s : State} {k : Nat} (hk : s.frames.length ≤ k) (ack : BitVec 3) (n : Nat) :
    State.runFrames n (State.enter (s.frames.drop k) k ack s) = s.complete ack := by
  rw [List.drop_eq_nil_of_le hk, State.enter, State.runFrames_idle rfl]

/-- What entering the remaining entries does: it starts the first that emits a frame, or the command completes. -/
theorem State.enter_cases (ops : List FrameOp) (k : Nat) (ack : BitVec 3) (s : State) :
    (∃ j op, ops[j]? = some op ∧ op.hits s.cache = false ∧
      State.enter ops k ack s = s.startFrame (k + j) op.request op.data) ∨
    ((∀ op ∈ ops, op.hits s.cache = true) ∧ State.enter ops k ack s = s.complete ack) := by
  induction ops generalizing k with
  | nil => exact .inr ⟨by simp, rfl⟩
  | cons op ops ih =>
    rw [State.enter]
    by_cases hm : op.hits s.cache = true
    · rw [if_pos hm]
      obtain ⟨j, op', h1, h2, h3⟩ | ⟨h1, h2⟩ := ih (k + 1)
      · exact .inl ⟨j + 1, op', by simpa using h1, h2, by rw [h3]; congr 1; omega⟩
      · exact .inr ⟨by simpa [hm] using h1, h2⟩
    · rw [if_neg hm]
      exact .inl ⟨0, op, rfl, by simpa using hm, rfl⟩

/-- A loaded frame as a state inside a frame that begins in itself. -/
theorem State.loadFrame_within {s : State} (k : Nat) (r : Request) (d : Word) :
    s.loadFrame k r d = (s.loadFrame k r d).within [] ⟨d, 0#32, 0#3, false, r.header⟩ s.env.levels (.pos k .header 0) := rfl

theorem State.loadFrame_quiet {s : State} (h : s.quiet) (k : Nat) (r : Request) (d : Word) : (s.loadFrame k r d).quiet := h

/-- What the state after a frame's events shares with the state the frame was loaded in. -/
theorem State.within_did {s : State} (k : Nat) (r : Request) (d : Word) (es : List Event) (dp : Datapath)
    (ls : List Bool) (q : Seq) : Did s ((s.loadFrame k r d).within es dp ls q) es ls [] where
  ran := ((s.loadFrame k r d).within_ran es dp ls q).of_eq rfl rfl rfl rfl rfl rfl rfl rfl rfl rfl rfl
  levels := rfl
  outside := ⟨by simp, by simp, by simp, by simp⟩
  records := by simp
  linkUp := by simp
  dapReady := by simp
  cmd := by simp

/-- The effect of a frame, its entry being known. -/
theorem State.frameEffect_of {s : State} {op : FrameOp} (h : s.frameOp = some op) : s.frameEffect = s.opEffect op := by
  unfold State.frameEffect; rw [h]

/-- The frame in progress is a SELECT write of a bank selection, its entry being known. -/
theorem State.selecting_of {s : State} {op : FrameOp} (h : s.frameOp = some op) : s.selecting = op.selects := by
  unfold State.selecting; rw [h]

/-- The end of a frame that raised nothing. -/
theorem State.endFrame_did {s w : State} {k : Nat} {es : List Event} {ls : List Bool} (hd : Did s w es ls []) :
    ∃ u, w.endFrame k = State.enter (u.frames.drop (k + 1)) (k + 1) ackOk u ∧
      Did s u es ls [w.dp.record .completed] ∧ u.result = w.frameEffect.result ∧ u.cache = w.frameEffect.cache ∧
      u.busy = w.busy ∧ u.rsp = w.rsp := by
  refine ⟨(w.frameEffect.logFrame .completed).scrub, ?_, ?_, by simp, by simp, by simp, by simp⟩
  · have : ((w.frameEffect.logFrame .completed).scrub).frames = w.frames := State.frames_eq (by simp) (by simp)
    rw [State.endFrame, this]
  · obtain ⟨h1, h2, ⟨g1, g2, g3, g4⟩, h4, h5, h6, h7⟩ := hd
    refine ⟨h1.of_eq rfl rfl rfl rfl rfl rfl (by simp) (by simp) (by simp) (by simp) (by simp), by simpa using h2,
      ⟨by simpa using g1, by simpa using g2, by simpa using g3, by simpa using g4⟩, by simpa using h4,
      by simpa using h5, by simpa using h6, by simpa using h7⟩

/-! ### Starting a frame -/

/-- The cache, rewritten. -/
def State.withCache (s : State) (c : Cache) : State := { s with cache := c }

/-- Starting a frame is loading it, the cache being that of the frame's start. -/
theorem State.startFrame_eq {s : State} {k : Nat} {op : FrameOp} (hk : s.frames[k]? = some op) :
    s.startFrame k op.request op.data = (s.withCache (op.cacheAtStart s.cache)).loadFrame k op.request op.data := by
  have hs : (s.loadFrame k op.request op.data).selecting = op.selects :=
    State.selecting_of ((State.frameOp_of_seq (k := k) (ph := .header) (n := 0) rfl).trans hk)
  simp only [State.startFrame, hs]
  cases op with
  | read p a keep => simp [FrameOp.request, selectRequest, FrameOp.cacheAtStart]; rfl
  | select ap bank => simp [FrameOp.selects, FrameOp.cacheAtStart]; rfl
  | write p a d =>
    by_cases h : p = false ∧ a = 2#2
    · obtain ⟨rfl, rfl⟩ := h
      rfl
    · have : ¬(FrameOp.write p a d).request = selectRequest := by
        intro e
        simp only [FrameOp.request, selectRequest, Request.mk.injEq] at e
        exact h ⟨e.1, e.2.2⟩
      simp only [this, false_and, if_false, FrameOp.cacheAtStart, if_neg h]
      rfl

/-- What happened does not depend on the cache it began with. -/
theorem Did.of_withCache {s u : State} {c : Cache} {es : List Event} {ls : List Bool} {fs : List FrameRecord}
    (h : Did (s.withCache c) u es ls fs) : Did s u es ls fs :=
  ⟨h.ran.of_eq rfl rfl rfl rfl rfl rfl rfl rfl rfl rfl rfl, h.levels,
    ⟨h.outside.par, h.outside.offers, h.outside.resets, h.outside.linkFaults⟩, h.records, h.linkUp, h.dapReady, h.cmd⟩

/-! ### Starting a command -/

theorem State.begin_current {i : Instr} (h : i.request = none) (s : State) : (s.begin i).current = some i := by
  unfold State.current
  rw [State.begin_cmd]
  split
  · assumption
  · exact decodeCommand_command i h

theorem State.begin_frames {i : Instr} (h : i.request = none) (s : State) : (s.begin i).frames = Sys2Proof.Machine.frames s.par i := by
  unfold State.frames
  rw [State.begin_current h]
  rfl

theorem State.begin_quiet {s : State} (h : s.quiet) (i : Instr) : (s.begin i).quiet := h

theorem State.command_idle {s : State} (h : s.seq = .idle) (i : Instr) (body : State → State) :
    s.command i body = body (s.begin i) := by
  unfold State.command; rw [h]

theorem State.command_busy {s : State} (h : s.seq ≠ .idle) (i : Instr) (body : State → State) :
    s.command i body = s := by
  unfold State.command
  split
  · exact absurd (by assumption) h
  · rfl

/-- A request where a frame stands is that frame. -/
theorem State.request_at {s : State} {k : Nat} (h : s.seq = .pos k .header 0) (r : Request) (d : Word) :
    s.request r d = State.runFrame frameFuel (s.startFrame k r d) := by
  unfold State.request; rw [h]; simp

section loaded
variable {s : State} (h : s.quiet) {k : Nat}
include h

/-- A loaded read frame that completes. -/
theorem State.run_readLoaded {apndp : Bool} {a : BitVec 2} {keep : Bool}
    (hk : s.frames[k]? = some (.read apndp a keep)) {t i0 i1 : Bool} {v : Word} {ls : List Bool}
    (hl : s.env.levels = readLevels t v (parity32 v) i0 i1 ++ ls) :
    ∃ u, State.runFrame frameFuel (s.loadFrame k ⟨apndp, true, a⟩ 0#32) =
        State.enter (u.frames.drop (k + 1)) (k + 1) ackOk u ∧
      Did s u (readTrace s.pins.swdioOe ⟨apndp, true, a⟩ t v (parity32 v) i0 i1) ls
        [completedFrame ⟨apndp, true, a⟩ v] ∧
      u.result = (if keep then v else s.result) ∧ u.cache = s.cache ∧ u.busy = s.busy ∧ u.rsp = s.rsp := by
  have hrun := State.run_read (State.loadFrame_quiet h k ⟨apndp, true, a⟩ 0#32) k
    ⟨0#32, 0#32, 0#3, false, Request.header ⟨apndp, true, a⟩⟩ ⟨apndp, true, a⟩ rfl rfl t v (parity32 v) i0 i1 ls 49
  have hd := State.within_did (s := s) k ⟨apndp, true, a⟩ 0#32
    (readTrace s.pins.swdioOe ⟨apndp, true, a⟩ t v (parity32 v) i0 i1)
    ⟨0#32, v, ackOk, parity32 v, Request.header ⟨apndp, true, a⟩⟩ ls (.pos k .idle 1)
  rw [State.loadFrame_pins] at hrun
  have hc := State.within_cache (s.loadFrame k ⟨apndp, true, a⟩ 0#32)
    (readTrace s.pins.swdioOe ⟨apndp, true, a⟩ t v (parity32 v) i0 i1)
    ⟨0#32, v, ackOk, parity32 v, Request.header ⟨apndp, true, a⟩⟩ ls (.pos k .idle 1)
  have hres := State.within_result (s.loadFrame k ⟨apndp, true, a⟩ 0#32)
    (readTrace s.pins.swdioOe ⟨apndp, true, a⟩ t v (parity32 v) i0 i1)
    ⟨0#32, v, ackOk, parity32 v, Request.header ⟨apndp, true, a⟩⟩ ls (.pos k .idle 1)
  generalize hw : (s.loadFrame k ⟨apndp, true, a⟩ 0#32).within
    (readTrace s.pins.swdioOe ⟨apndp, true, a⟩ t v (parity32 v) i0 i1)
    ⟨0#32, v, ackOk, parity32 v, Request.header ⟨apndp, true, a⟩⟩ ls (.pos k .idle 1) = w at hd hrun hc hres
  have hop : w.frameOp = some (.read apndp a keep) := by
    rw [State.frameOp_of_seq (k := k) (ph := .idle) (n := 1) (by rw [← hw]; rfl), hd.frames, hk]
  have hdp : w.dp = ⟨0#32, v, ackOk, parity32 v, Request.header ⟨apndp, true, a⟩⟩ := by rw [← hw]; rfl
  obtain ⟨u, h1, h2, h3, h4, h5, h6⟩ := State.endFrame_did (k := k) hd
  refine ⟨u, ?_, ?_, ?_, ?_, by rw [h5, ← hw]; simp, by rw [h6, ← hw]; simp⟩
  · rw [← h1, show frameFuel = 49 + 47 from rfl]
    simp only [State.parityTest, hdp, if_true] at hrun
    rw [← hrun, ← hl]
    rfl
  · simpa [hdp, Datapath.record, Datapath.reading, completedFrame] using h2
  · rw [h3]
    cases keep <;> simp [State.frameEffect_of hop, State.opEffect, hdp, hres]
  · rw [h4]
    cases keep <;> simp [State.frameEffect_of hop, State.opEffect, hc]

/-- A loaded write frame (a plain write, or the SELECT write of a bank selection) that completes. -/
theorem State.run_writeLoaded {op : FrameOp} (hk : s.frames[k]? = some op) (hw : op.request.rnw = false)
    {t0 t1 : Bool} {ls : List Bool} (hl : s.env.levels = writeLevels t0 t1 ++ ls) :
    ∃ u, State.runFrame frameFuel (s.loadFrame k op.request op.data) =
        State.enter (u.frames.drop (k + 1)) (k + 1) ackOk u ∧
      Did s u (writeTrace s.pins.swdioOe op.request op.data t0 t1) ls [completedFrame op.request op.data] ∧
      u.result = s.result ∧
      u.cache = (s.opEffect op).cache ∧ u.busy = s.busy ∧ u.rsp = s.rsp := by
  have hrun := State.run_write (State.loadFrame_quiet h k op.request op.data) k
    ⟨op.data, 0#32, 0#3, false, op.request.header⟩ op.request rfl hw t0 t1 ls 49
  have hd := State.within_did (s := s) k op.request op.data (writeTrace s.pins.swdioOe op.request op.data t0 t1)
    ⟨op.data, 0#32, ackOk, false, op.request.header⟩ ls (.pos k .idle 0)
  rw [State.loadFrame_pins] at hrun
  have hc := State.within_cache (s.loadFrame k op.request op.data)
    (writeTrace s.pins.swdioOe op.request op.data t0 t1) ⟨op.data, 0#32, ackOk, false, op.request.header⟩ ls
    (.pos k .idle 0)
  have hres := State.within_result (s.loadFrame k op.request op.data)
    (writeTrace s.pins.swdioOe op.request op.data t0 t1) ⟨op.data, 0#32, ackOk, false, op.request.header⟩ ls
    (.pos k .idle 0)
  generalize hx : (s.loadFrame k op.request op.data).within
    (writeTrace s.pins.swdioOe op.request op.data t0 t1) ⟨op.data, 0#32, ackOk, false, op.request.header⟩ ls
    (.pos k .idle 0) = w at hd hrun hc hres
  have hop : w.frameOp = some op := by
    rw [State.frameOp_of_seq (k := k) (ph := .idle) (n := 0) (by rw [← hx]; rfl), hd.frames, hk]
  have hdp : w.dp = ⟨op.data, 0#32, ackOk, false, op.request.header⟩ := by rw [← hx]; rfl
  obtain ⟨u, h1, h2, h3, h4, h5, h6⟩ := State.endFrame_did (k := k) hd
  refine ⟨u, ?_, ?_, ?_, ?_, by rw [h5, ← hx]; simp, by rw [h6, ← hx]; simp⟩
  · rw [← h1, show frameFuel = 49 + 47 from rfl, ← hrun, ← hl]
    rfl
  · simpa [hdp, Datapath.record, Datapath.reading, completedFrame, hw] using h2
  · rw [h3, State.frameEffect_of hop]
    cases op with
    | read p a keep => simp [FrameOp.request] at hw
    | write p a d => exact hres
    | select ap bank => exact hres
  · rw [h4, State.frameEffect_of hop]
    cases op with
    | read p a keep => simp [FrameOp.request] at hw
    | write p a d => exact hc
    | select ap bank => rfl

/-- A loaded frame that fails its ACK: ACK_FAULT after 12 bit cycles, and the command ends. -/
theorem State.run_ackFaultLoaded {op : FrameOp} (hk : s.frames[k]? = some op) {t : Bool}
    {bad : BitVec 3} (hb : bad ≠ ackOk) {ls : List Bool} (hl : s.env.levels = ackLevels t bad ++ ls) :
    ∃ u, State.runFrame frameFuel (s.loadFrame k op.request op.data) = u ∧
      Did s u (requestTrace s.pins.swdioOe op.request t bad) ls
        [⟨op.request.header, if op.request.rnw then 0#32 else op.data, bad, .ackFault⟩] ∧
      u.rsp = ⟨true, statusAckFault, bad, 0#32⟩ ∧ u.busy = false ∧ u.seq = .idle ∧
      u.cache = (if op.selects then { s.cache with valid := false } else s.cache) := by
  have hrun := State.run_ackFault (State.loadFrame_quiet h k op.request op.data) k
    ⟨op.data, 0#32, 0#3, false, op.request.header⟩ op.request rfl t bad hb ls 84
  have hd := State.within_did (s := s) k op.request op.data (requestTrace s.pins.swdioOe op.request t bad)
    ⟨op.data, 0#32, bad, false, op.request.header⟩ ls (.pos k .ack 2)
  rw [State.loadFrame_pins] at hrun
  have hc := State.within_cache (s.loadFrame k op.request op.data)
    (requestTrace s.pins.swdioOe op.request t bad) ⟨op.data, 0#32, bad, false, op.request.header⟩ ls (.pos k .ack 2)
  generalize hx : (s.loadFrame k op.request op.data).within
    (requestTrace s.pins.swdioOe op.request t bad) ⟨op.data, 0#32, bad, false, op.request.header⟩ ls
    (.pos k .ack 2) = w at hd hrun hc
  have hop : w.frameOp = some op := by
    rw [State.frameOp_of_seq (k := k) (ph := .ack) (n := 2) (by rw [← hx]; rfl), hd.frames, hk]
  have hdp : w.dp = ⟨op.data, 0#32, bad, false, op.request.header⟩ := by rw [← hx]; rfl
  have he : State.runFrame frameFuel (s.loadFrame k op.request op.data) = w.raiseAckFault := by
    rw [show frameFuel = 84 + 12 from rfl, ← hrun, ← hl]
    rfl
  refine ⟨_, rfl, ?_, ?_, ?_, ?_, ?_⟩ <;> rw [he]
  · obtain ⟨h1, h2, ⟨g1, g2, g3, g4⟩, h4, h5, h6, h7⟩ := hd
    refine ⟨h1.of_eq rfl rfl rfl rfl rfl rfl ?_ ?_ ?_ ?_ ?_, ?_, ⟨?_, ?_, ?_, ?_⟩, ?_, ?_, ?_, ?_⟩ <;>
      simp_all [State.raiseAckFault, Datapath.record, Datapath.reading]
  · simp [State.raiseAckFault, hdp]
  · simp [State.raiseAckFault]
  · simp [State.raiseAckFault]
  · cases op <;> simp_all [State.raiseAckFault, State.forgetBankIfSelecting, State.selecting, FrameOp.selects]

/-- A loaded read frame that fails its parity: PARITY_ERROR after 47 bit cycles, and the command ends. -/
theorem State.run_parityErrorLoaded {apndp : Bool} {a : BitVec 2} {t p i0 i1 : Bool} {v : Word} (hp : p ≠ parity32 v)
    {ls : List Bool} (hl : s.env.levels = readLevels t v p i0 i1 ++ ls) :
    ∃ u, State.runFrame frameFuel (s.loadFrame k ⟨apndp, true, a⟩ 0#32) = u ∧
      Did s u (readTrace s.pins.swdioOe ⟨apndp, true, a⟩ t v p i0 i1) ls
        [⟨Request.header ⟨apndp, true, a⟩, v, ackOk, .parityError⟩] ∧
      u.rsp = ⟨true, statusParityError, ackOk, v⟩ ∧ u.busy = false ∧ u.seq = .idle ∧ u.cache = s.cache := by
  have hrun := State.run_read (State.loadFrame_quiet h k ⟨apndp, true, a⟩ 0#32) k
    ⟨0#32, 0#32, 0#3, false, Request.header ⟨apndp, true, a⟩⟩ ⟨apndp, true, a⟩ rfl rfl t v p i0 i1 ls 49
  have hd := State.within_did (s := s) k ⟨apndp, true, a⟩ 0#32 (readTrace s.pins.swdioOe ⟨apndp, true, a⟩ t v p i0 i1)
    ⟨0#32, v, ackOk, p, Request.header ⟨apndp, true, a⟩⟩ ls (.pos k .idle 1)
  rw [State.loadFrame_pins] at hrun
  have hc := State.within_cache (s.loadFrame k ⟨apndp, true, a⟩ 0#32)
    (readTrace s.pins.swdioOe ⟨apndp, true, a⟩ t v p i0 i1)
    ⟨0#32, v, ackOk, p, Request.header ⟨apndp, true, a⟩⟩ ls (.pos k .idle 1)
  generalize hx : (s.loadFrame k ⟨apndp, true, a⟩ 0#32).within
    (readTrace s.pins.swdioOe ⟨apndp, true, a⟩ t v p i0 i1)
    ⟨0#32, v, ackOk, p, Request.header ⟨apndp, true, a⟩⟩ ls (.pos k .idle 1) = w at hd hrun hc
  have hdp : w.dp = ⟨0#32, v, ackOk, p, Request.header ⟨apndp, true, a⟩⟩ := by rw [← hx]; rfl
  simp only [State.parityTest, hdp, if_neg hp] at hrun
  have he : State.runFrame frameFuel (s.loadFrame k ⟨apndp, true, a⟩ 0#32) = w.raiseParityError := by
    rw [show frameFuel = 49 + 47 from rfl, ← hrun, ← hl]
    rfl
  refine ⟨_, rfl, ?_, ?_, ?_, ?_, ?_⟩ <;> rw [he]
  · obtain ⟨h1, h2, ⟨g1, g2, g3, g4⟩, h4, h5, h6, h7⟩ := hd
    refine ⟨h1.of_eq rfl rfl rfl rfl rfl rfl ?_ ?_ ?_ ?_ ?_, ?_, ⟨?_, ?_, ?_, ?_⟩, ?_, ?_, ?_, ?_⟩ <;>
      simp_all [State.raiseParityError, Datapath.record, Datapath.reading]
  · simp [State.raiseParityError, hdp]
  · simp [State.raiseParityError]
  · simp [State.raiseParityError]
  · simp_all [State.raiseParityError]

/-- A read frame that completes. -/
theorem State.run_readFrame {apndp : Bool} {a : BitVec 2} {keep : Bool}
    (hk : s.frames[k]? = some (.read apndp a keep)) {t i0 i1 : Bool} {v : Word} {ls : List Bool}
    (hl : s.env.levels = readLevels t v (parity32 v) i0 i1 ++ ls) :
    ∃ u, State.runFrame frameFuel (s.startFrame k ⟨apndp, true, a⟩ 0#32) =
        State.enter (u.frames.drop (k + 1)) (k + 1) ackOk u ∧
      Did s u (readTrace s.pins.swdioOe ⟨apndp, true, a⟩ t v (parity32 v) i0 i1) ls
        [completedFrame ⟨apndp, true, a⟩ v] ∧
      u.result = (if keep then v else s.result) ∧ u.cache = s.cache ∧ u.busy = s.busy ∧ u.rsp = s.rsp := by
  have he := State.startFrame_eq hk
  rw [show s.startFrame k ⟨apndp, true, a⟩ 0#32 = _ from he]
  exact State.run_readLoaded h hk hl

/-- A write frame (a plain write, or the SELECT write of a bank selection) that completes. -/
theorem State.run_writeFrame {op : FrameOp} (hk : s.frames[k]? = some op) (hw : op.request.rnw = false)
    {t0 t1 : Bool} {ls : List Bool} (hl : s.env.levels = writeLevels t0 t1 ++ ls) :
    ∃ u, State.runFrame frameFuel (s.startFrame k op.request op.data) =
        State.enter (u.frames.drop (k + 1)) (k + 1) ackOk u ∧
      Did s u (writeTrace s.pins.swdioOe op.request op.data t0 t1) ls [completedFrame op.request op.data] ∧
      u.result = s.result ∧ u.cache = op.cacheOnOk s.cache ∧ u.busy = s.busy ∧ u.rsp = s.rsp := by
  obtain ⟨u, h1, h2, h3, h4, h5, h6⟩ := State.run_writeLoaded (s := s.withCache (op.cacheAtStart s.cache)) h hk hw hl
  refine ⟨u, by rw [State.startFrame_eq hk, h1], h2.of_withCache, h3, ?_, h5, h6⟩
  rw [h4]
  cases op with
  | read p a keep => simp [FrameOp.request] at hw
  | write p a d => rfl
  | select ap bank => rfl

/-- A frame that fails its ACK: ACK_FAULT after 12 bit cycles, and the command ends. -/
theorem State.run_ackFaultFrame {op : FrameOp} (hk : s.frames[k]? = some op) {t : Bool}
    {bad : BitVec 3} (hb : bad ≠ ackOk) {ls : List Bool} (hl : s.env.levels = ackLevels t bad ++ ls) :
    ∃ u, State.runFrame frameFuel (s.startFrame k op.request op.data) = u ∧
      Did s u (requestTrace s.pins.swdioOe op.request t bad) ls
        [⟨op.request.header, if op.request.rnw then 0#32 else op.data, bad, .ackFault⟩] ∧
      u.rsp = ⟨true, statusAckFault, bad, 0#32⟩ ∧ u.busy = false ∧ u.seq = .idle ∧
      u.cache = op.cacheOnFault s.cache := by
  obtain ⟨u, h1, h2, h3, h4, h5, h6⟩ := State.run_ackFaultLoaded (s := s.withCache (op.cacheAtStart s.cache)) h hk hb hl
  refine ⟨u, by rw [State.startFrame_eq hk, h1], h2.of_withCache, h3, h4, h5, ?_⟩
  rw [h6]
  cases op <;> rfl

/-- A read frame that fails its parity: PARITY_ERROR after 47 bit cycles, and the command ends. -/
theorem State.run_parityErrorFrame {apndp : Bool} {a : BitVec 2} {keep : Bool}
    (hk : s.frames[k]? = some (.read apndp a keep)) {t p i0 i1 : Bool} {v : Word} (hp : p ≠ parity32 v)
    {ls : List Bool} (hl : s.env.levels = readLevels t v p i0 i1 ++ ls) :
    ∃ u, State.runFrame frameFuel (s.startFrame k ⟨apndp, true, a⟩ 0#32) = u ∧
      Did s u (readTrace s.pins.swdioOe ⟨apndp, true, a⟩ t v p i0 i1) ls
        [⟨Request.header ⟨apndp, true, a⟩, v, ackOk, .parityError⟩] ∧
      u.rsp = ⟨true, statusParityError, ackOk, v⟩ ∧ u.busy = false ∧ u.seq = .idle ∧ u.cache = s.cache := by
  have he := State.startFrame_eq hk
  rw [show s.startFrame k ⟨apndp, true, a⟩ 0#32 = _ from he]
  exact State.run_parityErrorLoaded h hp hl

end loaded

end Sys2Proof.Machine
end

