-- ==== Sys2Proof/Laws/PerInstr.lean ====
section
/-!
SUPPORT. Per instruction: its encoding is a legal command word or a legal request header (spec/30_encoding.md R93, R98).
-/
namespace Sys2Proof.Laws.EncodingLegal

/-- The encoding is legal. -/
def Statement (i : Instr) : Prop := (encode i).wellFormed = true

/-- Every request's header is legal. -/
theorem header_legal (r : Request) : headerLegal r.header = true := by
  obtain ⟨p, n, a⟩ := r
  revert p n a; decide

/-- A raw command's word is legal. -/
theorem rawTriple_legal (r : Request) (d : Word) : (r.rawTriple d).legal = true := by
  obtain ⟨p, n, a⟩ := r
  cases n
  · revert p a; simp only [Request.rawTriple, Bool.false_eq_true, if_false, Command.legal, Command.opDefined,
      Command.reservedZero, Command.registerFieldsOk, Command.bankFieldsOk, Command.op]; decide
  · revert p a; simp only [Request.rawTriple, if_true, Command.legal, Command.opDefined,
      Command.reservedZero, Command.registerFieldsOk, Command.bankFieldsOk, Command.op]; decide

/-- A word with OP SELECT_BANK and its unused and reserved bits 0 is legal. -/
theorem selectBank_legal {w x y : Word} (h4 : w.extractLsb' 0 4 = 4#4) (h3 : w.extractLsb' 4 3 = 0#3)
    (h8 : w.extractLsb' 24 8 = 0#8) (h7 : w.getLsbD 7 = false) : Command.legal ⟨w, x, y⟩ = true := by
  simp only [Command.legal, Command.opDefined, Command.reservedZero, Command.registerFieldsOk, Command.bankFieldsOk,
    Command.op, h4, h3, h8, h7]
  rfl

theorem lineReset : Statement .lineReset := rfl

theorem wireRead a b : Statement (.wireRead a b) := rawTriple_legal _ _

theorem wireWrite a b c : Statement (.wireWrite a b c) := rawTriple_legal _ _

theorem selectBank a b : Statement (.selectBank a b) := by
  refine selectBank_legal ?_ ?_ ?_ ?_
  · apply BitVec.eq_of_getLsbD_eq; intro i hi; interval_cases i <;> simp
  · apply BitVec.eq_of_getLsbD_eq; intro i hi; interval_cases i <;> simp
  · apply BitVec.eq_of_getLsbD_eq; intro i hi; interval_cases i <;> simp
  · simp

theorem powerUp : Statement .powerUp := rfl

theorem memRead a : Statement (.memRead a) := (by decide : Command.legal ⟨0x6#32, 0, 0⟩ = true)

theorem memWrite a b : Statement (.memWrite a b) := (by decide : Command.legal ⟨0x7#32, 0, 0⟩ = true)

theorem memWriteHalf a b : Statement (.memWriteHalf a b) := (by decide : Command.legal ⟨0x8#32, 0, 0⟩ = true)

theorem reqDpWriteAbort a : Statement (.reqDpWriteAbort a) := header_legal _

theorem reqDpWriteCtrlstat a : Statement (.reqDpWriteCtrlstat a) := header_legal _

theorem reqDpWriteSelect a : Statement (.reqDpWriteSelect a) := header_legal _

theorem reqDpWrite0C a : Statement (.reqDpWrite0C a) := header_legal _

theorem reqDpReadIdcode : Statement .reqDpReadIdcode := header_legal _

theorem reqDpReadCtrlstat : Statement .reqDpReadCtrlstat := header_legal _

theorem reqDpRead08 : Statement .reqDpRead08 := header_legal _

theorem reqDpReadRdbuff : Statement .reqDpReadRdbuff := header_legal _

theorem reqApWriteCsw a : Statement (.reqApWriteCsw a) := header_legal _

theorem reqApWriteTar a : Statement (.reqApWriteTar a) := header_legal _

theorem reqApWrite08 a : Statement (.reqApWrite08 a) := header_legal _

theorem reqApWriteDrw a : Statement (.reqApWriteDrw a) := header_legal _

theorem reqApReadCsw : Statement .reqApReadCsw := header_legal _

theorem reqApReadTar : Statement .reqApReadTar := header_legal _

theorem reqApRead08 : Statement .reqApRead08 := header_legal _

theorem reqApReadDrw : Statement .reqApReadDrw := header_legal _

end Sys2Proof.Laws.EncodingLegal
end

