-- ==== Sys2Proof/Laws/Report.lean ====
section
/-!
SUPPORT. A command's list of frames runs as the frame-level report says, when no reset and no channel failure is scheduled.
-/
namespace Sys2Proof.Machine

theorem readTrace_swdioOe (p : Pins) (r : Request) (t : Bool) (d : Word) (q i0 i1 : Bool) :
    (p.play (readTrace p.swdioOe r t d q i0 i1)).swdioOe = false := by
  rw [readTrace, Pins.play_append, Pins.play_sample_swdioOe, requestTrace_swdioOe]

theorem writeTrace_swdioOe (p : Pins) (r : Request) (d : Word) (t0 t1 : Bool) :
    (p.play (writeTrace p.swdioOe r d t0 t1)).swdioOe = true := by
  rw [writeTrace, Pins.play_append, Pins.play_drive_swdioOe, Pins.play_append]
  apply Pins.play_dioMode_swdioOe
  rw [Pins.play_append]
  show ((p.play (requestTrace p.swdioOe r t0 ackOk)).after (.sample t1)).swdioOe = false
  simp only [Pins.after]
  exact requestTrace_swdioOe p r t0 ackOk

/-- SWCLK rests high after sampled bits (spec/41_wire_codec.md R125). -/
theorem Pins.play_sample_swclkO (p : Pins) {bs : List Bool} (h : bs ≠ []) : (p.play (bs.map .sample)).swclkO = true := by
  rw [Pins.play_sample, if_neg h]

theorem requestTrace_swclkO (p : Pins) (oe : Bool) (r : Request) (t : Bool) (ack : BitVec 3) :
    (p.play (requestTrace oe r t ack)).swclkO = true := by
  rw [requestTrace, Pins.play_append]
  exact Pins.play_sample_swclkO _ (by simp [ackLevels])

theorem readTrace_swclkO (p : Pins) (oe : Bool) (r : Request) (t : Bool) (d : Word) (q i0 i1 : Bool) :
    (p.play (readTrace oe r t d q i0 i1)).swclkO = true := by
  rw [readTrace, Pins.play_append]
  exact Pins.play_sample_swclkO _ (by simp)

/-- A write leaves SWCLK high and SWDIO's level 0 (spec/41_wire_codec.md R136). -/
theorem writeTrace_levels (p : Pins) (oe : Bool) (r : Request) (d : Word) (t0 t1 : Bool) :
    (p.play (writeTrace oe r d t0 t1)).swclkO = true ∧ (p.play (writeTrace oe r d t0 t1)).swdioO = false := by
  rw [writeTrace, Pins.play_append, Pins.play_drive]
  simp

/-- Without wire activity. -/
theorem Exchanged.nothing {s u : State} (hp : u.pins = s.pins) (ho : u.obs = s.obs) (ht : u.timer = s.timer)
    (hq : u.par = s.par) (he : u.env = s.env) : Exchanged s u [] s.env.levels [] ∧ SameOutside s u := by
  refine ⟨⟨(Ran.refl s).of_eq rfl rfl rfl rfl rfl rfl hp ?_ ?_ ?_ ht, ?_, ?_⟩, ⟨hq, ?_, ?_, ?_⟩⟩ <;> simp [*]

theorem Exchanged.trans {s u v : State} {es es' : List Event} {ls ls' : List Bool} {fs fs' : List FrameRecord}
    (h : Exchanged s u es ls fs) (g : Exchanged u v es' ls' fs') (hp : u.par = s.par) :
    Exchanged s v (es ++ es') ls' (fs ++ fs') where
  ran := h.ran.trans g.ran hp
  levels := g.levels
  records := by rw [g.records, h.records, List.append_assoc]

theorem Did.exchanged {s u : State} {es : List Event} {ls : List Bool} {fs : List FrameRecord} (h : Did s u es ls fs) :
    Exchanged s u es ls fs :=
  ⟨h.ran, h.levels, h.records⟩

/-- From `s` to `u` a list of frames ran as `r` reports, and the levels `rest` are left. -/
structure Reported (s u : State) (r : Report) (rest : List Bool) : Prop where
  exchanged : Exchanged s u r.trace rest r.records
  outside : SameOutside s u
  cmd : u.cmd = s.cmd
  linkUp : u.linkUp = s.linkUp
  dapReady : u.dapReady =
    if r.rsp.status = statusOk then (decide (s.current = some .powerUp) || s.dapReady) else s.dapReady
  rsp : u.rsp = r.rsp
  busy : u.busy = false
  seq : u.seq = .idle
  cache : u.cache = r.cache

theorem Reported.behind {s u v : State} {es ls f r rest} (h : Did s u es ls [f]) (g : Reported u v r rest) :
    Reported s v (r.behind es f) rest where
  exchanged := h.exchanged.trans g.exchanged h.outside.par
  outside := h.outside.trans g.outside
  cmd := g.cmd.trans h.cmd
  linkUp := g.linkUp.trans h.linkUp
  dapReady := by
    rw [g.dapReady, h.dapReady]
    have : u.current = s.current := by unfold State.current; rw [h.cmd]
    rw [this]; rfl
  rsp := g.rsp
  busy := g.busy
  seq := g.seq
  cache := g.cache

/-- The remaining entries `ops` of a command run as their report says. -/
theorem run_report (ops : List FrameOp) : ∀ (s : State) (k n : Nat) (ack : BitVec 3) (as : List Answer) (rest : List Bool),
    s.quiet → s.frames.drop k = ops → ops.length ≤ n → Answered ops as s.cache →
    s.env.levels = as.flatMap Answer.levels ++ rest →
    Reported s (State.runFrames n (State.enter ops k ack s)) (report ops as s.pins.swdioOe s.cache s.result ack) rest := by
  induction ops with
  | nil =>
    intro s k n ack as rest hq hk hn ha hl
    simp only [Answered] at ha
    subst ha
    rw [State.enter, State.runFrames_idle rfl]
    obtain ⟨h1, h2⟩ := Exchanged.nothing (s := s) (u := s.complete ack) (by simp) (by simp) (by simp)
      (by simp) (by simp)
    simp at hl
    rw [hl] at h1
    refine ⟨h1, h2, by simp, by simp, ?_, by simp [report], rfl, rfl, by simp [report]⟩
    rw [State.complete_dapReady]; rfl
  | cons op ops ih =>
    intro s k n ack as rest hq hk hn ha hl
    have hop : s.frames[k]? = some op := by
      have := congrArg List.head? hk
      simpa using this
    have hdrop : s.frames.drop (k + 1) = ops := by
      have := congrArg List.tail hk
      simpa using this
    obtain ⟨n, rfl⟩ : ∃ m, n = m + 1 := ⟨n - 1, by simp at hn; omega⟩
    have hn' : ops.length ≤ n := by simpa using hn
    simp only [report]
    rw [← hk]
    by_cases hm : op.hits s.cache = true
    · rw [if_pos hm, State.enter_hit hop hm, hdrop]
      rw [Answered.eq_def] at ha
      simp only [if_pos hm] at ha
      exact ih s (k + 1) (n + 1) ack as rest hq hdrop (by omega) ha hl
    · have hm' : op.hits s.cache = false := by simpa using hm
      rw [State.enter_load hop hm', State.runFrames_pos (State.startFrame_seq _ _ _ _)]
      rw [if_neg hm]
      rw [Answered.eq_def] at ha
      simp only [if_neg hm] at ha
      cases as with
      | nil => exact ha.elim
      | cons a as =>
      cases a with
      | bad t bad =>
        obtain ⟨hb, rfl⟩ := ha
        have hl' : s.env.levels = ackLevels t bad ++ rest := by simpa [Answer.levels] using hl
        obtain ⟨u, h1, h2, h3, h4, h5, h6⟩ := State.run_ackFaultFrame hq hop hb hl'
        rw [h1, State.runFrames_idle h5]
        refine ⟨h2.exchanged, h2.outside, h2.cmd, h2.linkUp, ?_, h3, h4, h5, ?_⟩
        · simp [h2.dapReady, statusAckFault, statusOk]
        · rw [h6]
      | read t d p i0 i1 =>
        obtain ⟨hr, ha⟩ := ha
        cases op with
        | write p a d => simp [FrameOp.request] at hr
        | select ap bank => simp [FrameOp.request, selectRequest] at hr
        | read apndp a keep =>
        by_cases hp : p = parity32 d
        · subst hp
          rw [if_pos rfl] at ha
          have hl' : s.env.levels = readLevels t d (parity32 d) i0 i1 ++ (as.flatMap Answer.levels ++ rest) := by simpa [Answer.levels] using hl
          obtain ⟨u, h1, h2, h3, h4, -, -⟩ := State.run_readFrame hq hop hl'
          simp only [if_true]
          rw [show State.runFrame frameFuel
            (s.startFrame k (FrameOp.read apndp a keep).request (FrameOp.read apndp a keep).data) = _ from h1, h2.frames, hdrop]
          have := ih u (k + 1) n ackOk as rest (h2.quiet hq) (by rw [h2.frames, hdrop]) hn' (by rw [h4]; exact ha) h2.levels
          rw [h2.ran.pins, readTrace_swdioOe, h3, h4] at this
          exact Reported.behind h2 this
        · rw [if_neg hp] at ha
          subst ha
          have hl' : s.env.levels = readLevels t d p i0 i1 ++ rest := by simpa [Answer.levels] using hl
          obtain ⟨u, h1, h2, h3, h4, h5, h6⟩ := State.run_parityErrorFrame hq hop hp hl'
          rw [show State.runFrame frameFuel
            (s.startFrame k (FrameOp.read apndp a keep).request (FrameOp.read apndp a keep).data) = _ from h1, State.runFrames_idle h5]
          simp only [if_neg hp]
          refine ⟨h2.exchanged, h2.outside, h2.cmd, h2.linkUp, ?_, h3, h4, h5, ?_⟩
          · simp [h2.dapReady, statusParityError, statusOk]
          · rw [h6]
      | write t0 t1 =>
        obtain ⟨hr, ha⟩ := ha
        have hl' : s.env.levels = writeLevels t0 t1 ++ (as.flatMap Answer.levels ++ rest) := by simpa [Answer.levels] using hl
        obtain ⟨u, h1, h2, h3, h4', -, -⟩ := State.run_writeFrame hq hop hr hl'
        rw [h1, h2.frames, hdrop]
        have := ih u (k + 1) n ackOk as rest (h2.quiet hq) (by rw [h2.frames, hdrop]) hn' (by rw [h4']; exact ha) h2.levels
        rw [h2.ran.pins, writeTrace_swdioOe, h3, h4'] at this
        exact Reported.behind h2 this

/-- A report always has a response. -/
theorem report_valid (ops : List FrameOp) : ∀ as oe c v ack, (report ops as oe c v ack).rsp.valid = true := by
  induction ops with
  | nil => intros; rfl
  | cons op ops ih =>
    intro as oe c v ack
    unfold report
    split
    · apply ih
    · split
      · rfl
      · rfl
      · split
        · exact ih ..
        · rfl
      · exact ih ..

end Sys2Proof.Machine
end

