-- ==== Sys2Proof/Laws/Tick.lean ====
section
/-!
SUPPORT. Everything one bit cycle of a command in progress can do, whatever is scheduled: it leads to the next position, or it
ends the frame in one of seven ways. A frame comes to an end within its bit cycles.
-/
namespace Sys2Proof.Machine

/-- What wire activity inside a frame leaves unchanged. -/
structure Moved (s u : State) : Prop where
  linkUp : u.linkUp = s.linkUp
  dapReady : u.dapReady = s.dapReady
  cache : u.cache = s.cache
  busy : u.busy = s.busy
  rsp : u.rsp = s.rsp
  seq : u.seq = s.seq
  header : u.dp.hdr = s.dp.hdr
  word : u.dp.tx = s.dp.tx
  cmd : u.cmd = s.cmd
  result : u.result = s.result
  par : u.par = s.par
  offers : u.env.offers = s.env.offers
  frames : u.obs.frames = s.obs.frames
  timer : s.timer = 0 → u.timer = 0
  clockOe : s.pins.swclkOe = true → u.pins.swclkOe = true
  clockO : s.pins.swclkO = true → u.pins.swclkO = true

theorem Moved.refl (s : State) : Moved s s :=
  ⟨rfl, rfl, rfl, rfl, rfl, rfl, rfl, rfl, rfl, rfl, rfl, rfl, rfl, id, id, id⟩

theorem Moved.trans {s u v : State} (h : Moved s u) (g : Moved u v) : Moved s v where
  linkUp := g.linkUp.trans h.linkUp
  dapReady := g.dapReady.trans h.dapReady
  cache := g.cache.trans h.cache
  busy := g.busy.trans h.busy
  rsp := g.rsp.trans h.rsp
  seq := g.seq.trans h.seq
  header := g.header.trans h.header
  word := g.word.trans h.word
  cmd := g.cmd.trans h.cmd
  result := g.result.trans h.result
  par := g.par.trans h.par
  offers := g.offers.trans h.offers
  frames := g.frames.trans h.frames
  timer := g.timer ∘ h.timer
  clockOe := g.clockOe ∘ h.clockOe
  clockO := g.clockO ∘ h.clockO

theorem Moved.reading {s u : State} (h : Moved s u) : u.dp.reading = s.dp.reading := by
  rw [Datapath.reading, Datapath.reading, h.header]

/-- A bit cycle has passed: SWCLK is high and the timer stopped. -/
def Clocked (u : State) : Prop := u.pins.swclkO = true ∧ u.timer = 0

/-- The position after a bit cycle that does not end the frame. -/
def Seq.succ (reading : Bool) : Seq → Seq
  | .idle => .idle
  | .pos k .header n => nextPos k .header n 8 .trn1
  | .pos k .trn1 _ => .pos k .ack 0
  | .pos k .ack n => if n + 1 < 3 then .pos k .ack (n + 1) else .pos k (if reading then .data else .trn2) 0
  | .pos k .trn2 _ => .pos k .data 0
  | .pos k .data n => nextPos k .data n 32 .parity
  | .pos k .parity _ => .pos k .idle 0
  | .pos k .idle n => .pos k .idle (n + 1)
  | .pos k .ones n => nextPos k .ones n lineResetOnes .magic
  | .pos k .magic n => nextPos k .magic n 16 .idleSync
  | .pos k .idleSync n => .pos k .idleSync (n + 1)

/-- The bit cycles left of a frame, or of a line reset, at a position. -/
def Seq.left : Seq → Nat
  | .idle => 0
  | .pos _ .header n => 40 + max 1 (8 - n)
  | .pos _ .trn1 _ => 40
  | .pos _ .ack n => 36 + max 1 (3 - n)
  | .pos _ .trn2 _ => 36
  | .pos _ .data n => 3 + max 1 (32 - n)
  | .pos _ .parity _ => 3
  | .pos _ .idle n => max 1 (2 - n)
  | .pos _ .ones n => 32 + max 1 (64 - n)
  | .pos _ .magic n => 16 + max 1 (16 - n)
  | .pos _ .idleSync n => max 1 (16 - n)

/-- The ways a bit cycle can end the frame (or the line reset) in progress in `s`. -/
inductive TickEnd (s : State) : State → Prop where
  | idle : s.seq = .idle → TickEnd s s
  | blockReset (u : State) : u.par = s.par → u.env.offers = s.env.offers → u.obs.frames = s.obs.frames →
      TickEnd s u.blockReset
  | linkFailure (u : State) : Moved s u → u.par.phyCanFail = true → TickEnd s u.raiseTransportError
  | ackFault (u : State) (k n : Nat) : Moved s u → Clocked u → s.seq = .pos k .ack n → u.dp.ack ≠ ackOk →
      TickEnd s u.raiseAckFault
  | parityError (u : State) (k n : Nat) : Moved s u → Clocked u → s.seq = .pos k .idle n → s.dp.reading = true →
      TickEnd s u.raiseParityError
  | frame (u : State) (k n : Nat) : Moved s u → Clocked u → s.seq = .pos k .idle n → u.dp.ack = s.dp.ack →
      TickEnd s (u.endFrame k)
  | lineReset (u : State) (k n : Nat) : Moved s u → Clocked u → s.seq = .pos k .idleSync n → TickEnd s u.endLineReset

/-- The ACK register after a bit cycle that goes on: unchanged, but for an ACK bit, the last of which has passed the test. -/
def AckKept (s u : State) : Prop :=
  ∀ k ph n, s.seq = .pos k ph n → if ph = .ack then n + 1 < 3 ∨ u.dp.ack = ackOk else u.dp.ack = s.dp.ack

/-- What a bit cycle can do: go on to the next position, or end the frame. -/
inductive TickTo (s : State) : Flow → Prop where
  | on (u : State) : Moved s u → Clocked u → (∀ k, s.seq = .pos k .ones 0 → u.pins.swclkOe = true) →
      AckKept s u → (s.seq.succ s.dp.reading).left < s.seq.left → TickTo s (.on (u.goto (s.seq.succ s.dp.reading)))
  | off (t : State) : TickEnd s t → TickTo s (.off t)

theorem Flow.andThen_assoc (f : Flow) (j k : State → Flow) :
    (f.andThen j).andThen k = f.andThen fun s => (j s).andThen k := by
  cases f <;> rfl

theorem State.passEvent_moved (s : State) : Moved s s.passEvent :=
  ⟨rfl, rfl, rfl, rfl, rfl, rfl, rfl, rfl, rfl, rfl, rfl, rfl, rfl, id, id, id⟩

theorem State.useLevel_moved (s : State) : Moved s s.useLevel := by
  unfold State.useLevel
  repeat' split
  all_goals exact ⟨rfl, rfl, rfl, rfl, rfl, rfl, rfl, rfl, rfl, rfl, rfl, rfl, rfl, id, id, id⟩

theorem State.withDp_moved (s : State) {d : Datapath} (h : d.hdr = s.dp.hdr) (g : d.tx = s.dp.tx) : Moved s (s.withDp d) :=
  ⟨rfl, rfl, rfl, rfl, rfl, rfl, h, g, rfl, rfl, rfl, rfl, rfl, id, id, id⟩

theorem State.setMode_moved (s : State) (pin : Pin) (m : Mode) (out : Bool) (h : pin = .swclk → out = true) :
    Moved s ({ s with pins := s.pins.setMode pin out }.emit (.setMode pin m)) := by
  cases pin with
  | swclk => exact ⟨rfl, rfl, rfl, rfl, rfl, rfl, rfl, rfl, rfl, rfl, rfl, rfl, rfl, id, fun _ => h rfl, id⟩
  | swdio => exact ⟨rfl, rfl, rfl, rfl, rfl, rfl, rfl, rfl, rfl, rfl, rfl, rfl, rfl, id, id, id⟩

/-- A wire event after a move: it fails, or it goes on from a move. -/
theorem State.event_to {s v : State} (h : Moved s v) {k : State → Flow} (hk : ∀ u, Moved s u → u.pins = v.pins →
    u.dp = v.dp → TickTo s (k u)) : TickTo s (v.event k) := by
  obtain ⟨hr, he⟩ | ⟨-, hl, he⟩ | ⟨-, -, he⟩ := v.event_cases k <;> rw [he]
  · exact .off _ (.blockReset v h.par h.offers h.frames)
  · refine .off _ (.linkFailure _ (h.trans v.passEvent_moved) ?_)
    simp only [State.linkFailsNow, Bool.and_eq_true] at hl
    exact hl.2
  · exact hk _ (h.trans v.passEvent_moved) rfl rfl

/-- A half period, and what follows it: block reset lands in it, or it passes. `v` need not be a move: SWCLK is low in it. -/
theorem State.waitHalf_to {s v : State} (hp : v.par = s.par) (ho : v.env.offers = s.env.offers)
    (hf : v.obs.frames = s.obs.frames) {k : State → Flow} (hk : TickTo s (k v.halfPassed)) :
    TickTo s (v.waitHalf.andThen k) := by
  obtain ⟨n, -, h⟩ | h := v.waitHalf_cases <;> rw [h]
  · exact .off _ (.blockReset _ hp ho hf)
  · exact hk

/-- DriveBit after a move, and what follows it. -/
theorem State.driveBit_to {s v : State} (h : Moved s v) {b : Bool} {k : State → Flow}
    (hk : ∀ u, Moved s u → Clocked u → u.pins.swclkOe = v.pins.swclkOe → u.dp = v.dp → TickTo s (k u)) :
    TickTo s ((v.driveBit b).andThen k) := by
  have : (v.driveBit b).andThen k = v.event fun u => (u.driveCycle b).andThen k := by
    unfold State.driveBit State.event
    split
    · rfl
    · split <;> rfl
  rw [this]
  refine State.event_to h fun u hu hp hd => ?_
  unfold State.driveCycle
  rw [Flow.andThen_assoc]
  refine State.waitHalf_to (v := u.driveLow b) hu.par hu.offers hu.frames ?_
  rw [Flow.andThen_assoc]
  refine State.waitHalf_to (v := (u.driveLow b).halfPassed.clockTo true) hu.par hu.offers hu.frames ?_
  refine hk _ ⟨hu.linkUp, hu.dapReady, hu.cache, hu.busy, hu.rsp, hu.seq, hu.header, hu.word, hu.cmd, hu.result, hu.par,
    hu.offers, hu.frames, fun _ => State.halfPassed_timer _, hu.clockOe, fun _ => rfl⟩ ⟨rfl, State.halfPassed_timer _⟩ ?_ hd
  exact show u.pins.swclkOe = v.pins.swclkOe by rw [hp]

/-- SampleBit after a move, and what follows it. -/
theorem State.sampleBit_to {s v : State} (h : Moved s v) {k : Bool → State → Flow}
    (hk : ∀ b u, Moved s u → Clocked u → u.dp = v.dp → TickTo s (k b u)) : TickTo s (v.sampleBit k) := by
  refine State.event_to h fun u hu _ hd => ?_
  unfold State.sampleCycle
  refine State.waitHalf_to (v := u.clockTo false) hu.par hu.offers hu.frames ?_
  have hm := (u.clockTo false).halfPassed.useLevel_moved
  refine State.waitHalf_to (v := (u.clockTo false).halfPassed.takeLevel) (hm.par.trans hu.par) (hm.offers.trans hu.offers) (hm.frames.trans hu.frames) (hk _ _ ?_
    ⟨by simp, State.halfPassed_timer _⟩ ?_)
  · exact ⟨hm.linkUp.trans hu.linkUp, hm.dapReady.trans hu.dapReady, hm.cache.trans hu.cache, hm.busy.trans hu.busy,
      hm.rsp.trans hu.rsp, hm.seq.trans hu.seq, hm.header.trans hu.header, hm.word.trans hu.word, hm.cmd.trans hu.cmd,
      hm.result.trans hu.result, hm.par.trans hu.par, hm.offers.trans hu.offers, hm.frames.trans hu.frames,
      fun _ => State.halfPassed_timer _, fun e => hm.clockOe (hu.clockOe e), fun _ => by simp⟩
  · simp [hd]

/-- SetMode after a move, and what follows it. -/
theorem State.setMode_to {s v : State} (h : Moved s v) {pin : Pin} {out : Bool} (hp : pin = .swclk → out = true)
    {k : State → Flow} (hk : ∀ u, Moved s u → u.dp = v.dp → (pin = .swclk → u.pins.swclkOe = true) →
      (pin = .swdio → u.pins.swclkOe = v.pins.swclkOe) → TickTo s (k u)) :
    TickTo s ((v.setMode pin out).andThen k) := by
  unfold State.setMode
  split
  · rename_i ho
    refine hk v h rfl (fun e => ?_) fun _ => rfl
    subst e
    rw [hp rfl] at ho
    exact ho
  · have : (v.event fun s => .on ({ s with pins := s.pins.setMode pin out }.emit (.setMode pin (modeOf out)))).andThen k =
        v.event fun s => k ({ s with pins := s.pins.setMode pin out }.emit (.setMode pin (modeOf out))) := by
      unfold State.event
      split
      · rfl
      · split <;> rfl
    rw [this]
    refine State.event_to h fun u hu hpu hd => hk _ (hu.trans (u.setMode_moved pin _ out hp)) hd ?_ ?_
    · intro e; subst e; exact hp rfl
    · intro e; subst e; rw [← hpu]; rfl

/-- The SetMode of a first bit after a move, and what follows it. -/
theorem State.setModeFirst_to {s v : State} (h : Moved s v) {n : Nat} {out : Bool} {k : State → Flow}
    (hk : ∀ u, Moved s u → u.dp = v.dp → u.pins.swclkOe = v.pins.swclkOe → TickTo s (k u)) :
    TickTo s ((v.setModeFirst n out).andThen k) := by
  unfold State.setModeFirst
  split
  · exact State.setMode_to h (by simp) fun u hu hd _ hp => hk u hu hd (hp rfl)
  · exact hk v h rfl rfl

/-- Everything a bit cycle can do. -/
theorem State.tickFlow_to (s : State) : TickTo s s.tickFlow := by
  have on : ∀ (u : State) q, Moved s u → Clocked u → (∀ k, s.seq = .pos k .ones 0 → u.pins.swclkOe = true) →
      AckKept s u → q = s.seq.succ s.dp.reading → q.left < s.seq.left → TickTo s (.on (u.goto q)) := by
    intro u q hu hc ho ha hq hl
    subst hq
    exact .on u hu hc ho ha hl
  have keep : ∀ (u : State) {k ph n}, s.seq = .pos k ph n → ph ≠ .ack → u.dp.ack = s.dp.ack → AckKept s u := by
    intro u k ph n hq hp ha k' ph' n' hq'
    rw [hq] at hq'
    cases hq'
    rwa [if_neg hp]
  have ackKeep : ∀ (u : State) {k n}, s.seq = .pos k .ack n → (n + 1 < 3 ∨ u.dp.ack = ackOk) → AckKept s u := by
    intro u k n hq ha k' ph' n' hq'
    rw [hq] at hq'
    cases hq'
    rwa [if_pos rfl]
  have hs := Moved.refl s
  unfold State.tickFlow
  split <;> rename_i hq
  · exact .off _ (.idle hq)
  · refine State.setModeFirst_to hs fun u hu hd _ => State.driveBit_to hu fun v hv hc _ he => ?_
    refine on v _ hv hc (by simp [hq]) (keep _ hq (by simp) (by rw [he, hd])) (by simp [hq, Seq.succ]) ?_
    simp only [hq, nextPos]; split <;> simp only [Seq.left] <;> omega
  · refine State.setMode_to hs (by simp) fun u hu hd _ _ => State.sampleBit_to hu fun b v hv hc he => ?_
    refine on v _ hv hc (by simp [hq]) (keep _ hq (by simp) (by rw [he, hd])) (by simp [hq, Seq.succ]) ?_
    simp [hq, Seq.left]
  · rename_i k n
    refine State.sampleBit_to hs fun b v hv hc hd => ?_
    have hm : Moved s (v.withDp { v.dp with ack := setBit v.dp.ack n b }) := hv.trans (v.withDp_moved rfl rfl)
    simp only
    split
    · rename_i hn
      refine on _ _ hm hc (by simp [hq]) (ackKeep _ hq (.inl hn)) (by simp [hq, Seq.succ, hn]) ?_
      simp [hq, Seq.left]; omega
    · rename_i hn
      unfold State.ackTest
      split
      · rename_i hk
        refine on _ _ hm hc (by simp [hq]) (ackKeep _ hq (.inr hk)) (by rw [hm.reading, hq, Seq.succ, if_neg hn]) ?_
        simp only [hq]; split <;> simp only [Seq.left] <;> omega
      · exact .off _ (.ackFault _ k n hm hc hq (by assumption))
  · refine State.sampleBit_to hs fun b v hv hc he => ?_
    refine on v _ hv hc (by simp [hq]) (keep _ hq (by simp) (by rw [he])) (by simp [hq, Seq.succ]) ?_
    simp [hq, Seq.left]
  · unfold State.tickData
    split
    · refine State.sampleBit_to hs fun b v hv hc hd => ?_
      refine on _ _ (hv.trans (v.withDp_moved rfl rfl)) hc (by simp [hq]) (keep _ hq (by simp) (show v.dp.ack = s.dp.ack by rw [hd])) (by simp [hq, Seq.succ]) ?_
      simp only [hq, nextPos]; split <;> simp only [Seq.left] <;> omega
    · refine State.setModeFirst_to hs fun u hu hd _ => State.driveBit_to hu fun v hv hc _ he => ?_
      refine on v _ hv hc (by simp [hq]) (keep _ hq (by simp) (by rw [he, hd])) (by simp [hq, Seq.succ]) ?_
      simp only [hq, nextPos]; split <;> simp only [Seq.left] <;> omega
  · unfold State.tickParity
    split
    · refine State.sampleBit_to hs fun b v hv hc hd => ?_
      refine on _ _ (hv.trans (v.withDp_moved rfl rfl)) hc (by simp [hq]) (keep _ hq (by simp) (show v.dp.ack = s.dp.ack by rw [hd])) (by simp [hq, Seq.succ]) ?_
      simp [hq, Seq.left]
    · refine State.driveBit_to hs fun v hv hc _ he => ?_
      refine on v _ hv hc (by simp [hq]) (keep _ hq (by simp) (by rw [he])) (by simp [hq, Seq.succ]) ?_
      simp [hq, Seq.left]
  · unfold State.tickIdle
    rename_i k n
    split
    · rename_i hr
      refine State.sampleBit_to hs fun b v hv hc hd => ?_
      split
      · refine on v _ hv hc (by simp [hq]) (keep _ hq (by simp) (by rw [hd])) (by simp [hq, Seq.succ]) ?_
        simp [hq, Seq.left]; omega
      · unfold State.parityTest
        split
        · exact .off _ (.frame v k n hv hc hq (by rw [hd]))
        · exact .off _ (.parityError v k n hv hc hq hr)
    · exact State.driveBit_to hs fun v hv hc _ hd => .off _ (.frame v k n hv hc hq (by rw [hd]))
  · unfold State.tickOnes
    rename_i k n
    have key : ∀ u, Moved s u → u.dp = s.dp → (n = 0 → u.pins.swclkOe = true) →
        TickTo s ((u.setModeFirst n true).andThen fun s =>
          (s.driveBit true).andThen fun s => .on (s.goto (nextPos k .ones n lineResetOnes .magic))) := by
      intro u hu hdu h0
      refine State.setModeFirst_to hu fun v hv hd hp => State.driveBit_to hv fun w hw hc hpw he => ?_
      refine on w _ hw hc ?_ (keep _ hq (by simp) (by rw [he, hd, hdu])) (by simp [hq, Seq.succ]) ?_
      · intro k' e
        rw [hq] at e
        cases e
        rw [hpw, hp, h0 rfl]
      · have h64 : lineResetOnes = 64 := rfl
        by_cases hlt : n + 1 < lineResetOnes <;> simp [hq, nextPos, hlt, Seq.left] <;> omega
    by_cases hn : n = 0
    · subst hn
      simp only [if_true]
      rw [Flow.andThen_assoc]
      exact State.setMode_to hs (fun _ => rfl) fun u hu hd hp _ => key u hu hd fun _ => hp rfl
    · simp only [hn, if_false, Flow.andThen_on]
      exact key s hs rfl fun h => absurd h hn
  · refine State.driveBit_to hs fun v hv hc _ he => ?_
    refine on v _ hv hc (by simp [hq]) (keep _ hq (by simp) (by rw [he])) (by simp [hq, Seq.succ]) ?_
    simp only [hq, nextPos]; split <;> simp only [Seq.left] <;> omega
  · rename_i k n
    refine State.driveBit_to hs fun v hv hc _ he => ?_
    split
    · refine on v _ hv hc (by simp [hq]) (keep _ hq (by simp) (by rw [he])) (by simp [hq, Seq.succ]) ?_
      simp [hq, Seq.left]; omega
    · exact .off _ (.lineReset v k n hv hc hq)

/-- A property that bit cycles keep holds at the end of a frame. -/
theorem State.runFrame_keeps {P : State → Prop} (hon : ∀ s t, P s → s.tickFlow = .on t → P t)
    (hoff : ∀ s t, P s → s.tickFlow = .off t → P t) (fuel : Nat) : ∀ s, P s → P (State.runFrame fuel s) := by
  induction fuel with
  | zero => exact fun s h => h
  | succ n ih =>
    intro s h
    rw [State.runFrame]
    split
    · exact ih _ (hon s _ h (by assumption))
    · exact hoff s _ h (by assumption)

/-- A property that bit cycles keep holds at the end of a command. -/
theorem State.runFrames_keeps {P : State → Prop} (hon : ∀ s t, P s → s.tickFlow = .on t → P t)
    (hoff : ∀ s t, P s → s.tickFlow = .off t → P t) (n : Nat) : ∀ s, P s → P (State.runFrames n s) := by
  induction n with
  | zero => exact fun s h => h
  | succ n ih =>
    intro s h
    rw [State.runFrames]
    split
    · exact h
    · exact ih _ (State.runFrame_keeps hon hoff _ _ h)

/-- The step of a position. -/
def Seq.stepOf : Seq → Nat
  | .idle => 0
  | .pos k _ _ => k

/-- `v` is a later state of the frame (or the line reset) in progress in `s`. -/
structure Along (s v : State) : Prop where
  linkUp : v.linkUp = s.linkUp
  dapReady : v.dapReady = s.dapReady
  cache : v.cache = s.cache
  busy : v.busy = s.busy
  rsp : v.rsp = s.rsp
  header : v.dp.hdr = s.dp.hdr
  word : v.dp.tx = s.dp.tx
  cmd : v.cmd = s.cmd
  result : v.result = s.result
  par : v.par = s.par
  offers : v.env.offers = s.env.offers
  frames : v.obs.frames = s.obs.frames
  step : v.seq.stepOf = s.seq.stepOf
  inFrame : v.seq.inFrame = s.seq.inFrame
  running : v.seq ≠ .idle

theorem Along.refl {s : State} (h : s.seq ≠ .idle) : Along s s :=
  ⟨rfl, rfl, rfl, rfl, rfl, rfl, rfl, rfl, rfl, rfl, rfl, rfl, rfl, rfl, h⟩

theorem Along.trans {s u v : State} (h : Along s u) (g : Along u v) : Along s v where
  linkUp := g.linkUp.trans h.linkUp
  dapReady := g.dapReady.trans h.dapReady
  cache := g.cache.trans h.cache
  busy := g.busy.trans h.busy
  rsp := g.rsp.trans h.rsp
  header := g.header.trans h.header
  word := g.word.trans h.word
  cmd := g.cmd.trans h.cmd
  result := g.result.trans h.result
  par := g.par.trans h.par
  offers := g.offers.trans h.offers
  frames := g.frames.trans h.frames
  step := g.step.trans h.step
  inFrame := g.inFrame.trans h.inFrame
  running := g.running

/-- The next position is of the same step, and in a frame if the position is. -/
theorem Seq.succ_along {q : Seq} (h : q ≠ .idle) (reading : Bool) :
    (q.succ reading).stepOf = q.stepOf ∧ (q.succ reading).inFrame = q.inFrame ∧ q.succ reading ≠ .idle := by
  cases q with
  | idle => exact absurd rfl h
  | pos k ph n =>
    cases ph <;> simp only [Seq.succ, nextPos] <;> (try split) <;> (try split) <;>
      simp [Seq.stepOf, Seq.inFrame, Phase.inFrame]

theorem Moved.along {s u : State} (h : Moved s u) (hs : s.seq ≠ .idle) (reading : Bool) :
    Along s (u.goto (s.seq.succ reading)) := by
  obtain ⟨h1, h2, h3⟩ := Seq.succ_along hs reading
  exact ⟨h.linkUp, h.dapReady, h.cache, h.busy, h.rsp, h.header, h.word, h.cmd, h.result, h.par, h.offers, h.frames, h1, h2,
    h3⟩

/-- A frame ends within its bit cycles, by a bit cycle that ends it. -/
theorem State.runFrame_ends (fuel : Nat) : ∀ s : State, s.seq.left ≤ fuel → s.seq ≠ .idle →
    ∃ v, Along s v ∧ v.tickFlow = .off (State.runFrame fuel s) := by
  induction fuel with
  | zero =>
    intro s h hs
    exfalso
    cases hq : s.seq with
    | idle => exact hs hq
    | pos k ph n => rw [hq] at h; cases ph <;> simp [Seq.left] at h
  | succ n ih =>
    intro s h hs
    have ht := s.tickFlow_to
    generalize hf : s.tickFlow = f at ht
    cases ht with
    | on u hu hc ho ha hl =>
      have hal := hu.along hs s.dp.reading
      obtain ⟨v, hv, he⟩ := ih (u.goto (s.seq.succ s.dp.reading)) (by simp only [State.goto_seq]; omega) hal.running
      exact ⟨v, hal.trans hv, by rw [he, State.runFrame, hf]⟩
    | off t he => exact ⟨s, Along.refl hs, by rw [State.runFrame, hf]⟩

/-- Every position is within the bit cycles of runFrame. -/
theorem Seq.left_le (q : Seq) : q.left ≤ frameFuel := by
  cases q with
  | idle => exact Nat.zero_le _
  | pos k ph n => cases ph <;> simp only [Seq.left, frameFuel] <;> omega

/-- How the frame in progress ends. -/
theorem State.runFrame_end {s : State} (h : s.seq ≠ .idle) :
    ∃ v, Along s v ∧ TickEnd v (State.runFrame frameFuel s) := by
  obtain ⟨v, hv, he⟩ := State.runFrame_ends frameFuel s s.seq.left_le h
  have ht := v.tickFlow_to
  rw [he] at ht
  cases ht with
  | off _ ht => exact ⟨v, hv, ht⟩

end Sys2Proof.Machine
end

