-- ==== Sys2Proof/Tests/Slice0.lean ====
section
/-!
SUPPORT. Tests. Expected values are those of spec/95_test_vectors.md (each test names its vector) or are worked out by hand from
the rule named; none is taken from the model. The last part shows, for each statement that has hypotheses, a state and operands
that meet them all.
-/
namespace Sys2Proof.Tests
open Sys2Proof.Machine

/-! ## Helpers -/

/-- The state after reset with the parameters of spec/95_test_vectors.md: PHY_CAN_FAIL false, CSW_BASE 0. -/
def base : State := { State.reset with par := ⟨false, 0, 0⟩ }

/-- A link that is up, pins as a LINE_RESET leaves them, with the given levels to come. -/
def linked (levels : List Bool) : State :=
  { base with linkUp := true, pins := ⟨true, true, true, false⟩, env := { base.env with levels := levels } }

/-- A block that POWER_UP has made ready; the cache as given. -/
def ready (c : Cache) (levels : List Bool) : State := { linked levels with dapReady := true, cache := c }

/-- The cache POWER_UP leaves. -/
def bank0 : Cache := ⟨true, 0x00#8, 0x00#8⟩

/-- A cache that holds nothing. -/
def noBank : Cache := ⟨false, 0x00#8, 0x00#8⟩

/-- Bits written as 0 and 1. -/
def bits (ns : List Nat) : List Bool := ns.map fun n => n == 1

/-- Drive and Sample events. -/
def driven (ns : List Nat) : List Event := (bits ns).map .drive
def sampled (ns : List Nat) : List Event := (bits ns).map .sample

/-- What an OK frame samples: of a read with data and parity, of a write. Every turnaround and idle bit is 1. -/
def rd (d : Word) (p : Bool) : List Bool := bits [1, 1, 0, 0] ++ (List.range 32).map d.getLsbD ++ [p, true, true]
def wr : List Bool := bits [1, 1, 0, 0, 1]

/-- The outcome is a next state that passes. -/
def passes (P : State → Bool) : Host.Outcome State Fault Refusal → Bool
  | .next t => P t
  | _ => false

/-- A command on the port. -/
def offer (w a d : Word) (s : State) : State := { s with env := { s.env with offers := [⟨w, a, d⟩] } }

/-- The frames that ended, as pairs of header and word. -/
def sent (s : State) : List (Byte × Word) := s.obs.frames.map fun f => (f.header, f.data)

/-- The bit cycles of the trace. -/
def cycles (s : State) : Nat := s.obs.trace.countP fun e => match e with
  | .drive _ => true
  | .sample _ => true
  | _ => false

/-! ## Well-formedness: each check refuses an ill-formed word (spec/95_test_vectors.md V-D; spec/30_encoding.md R93, R98) -/

theorem test_wf_op_zero : Command.legal ⟨0x00000000#32, 0, 0⟩ = false := by decide
theorem test_wf_op_nine : Command.legal ⟨0x00000009#32, 0, 0⟩ = false := by decide
theorem test_wf_op_fifteen : Command.legal ⟨0x0000000F#32, 0, 0⟩ = false := by decide
theorem test_wf_bit7 : Command.legal ⟨0x00000081#32, 0, 0⟩ = false := by decide
theorem test_wf_high_byte : Command.legal ⟨0x01000001#32, 0, 0⟩ = false := by decide
theorem test_wf_apndp_on_line_reset : Command.legal ⟨0x00000011#32, 0, 0⟩ = false := by decide
theorem test_wf_bank_on_power_up : Command.legal ⟨0x00000105#32, 0, 0⟩ = false := by decide
theorem test_wf_ap_on_wire_read : Command.legal ⟨0x00010002#32, 0, 0⟩ = false := by decide
theorem test_wf_a_on_select_bank : Command.legal ⟨0x0001F314#32, 0, 0⟩ = false := by decide
theorem test_wf_wire_read_ap_drw : Command.legal ⟨0x00000072#32, 0, 0⟩ = true := by decide
theorem test_wf_header_start : headerLegal 0b10100100#8 = false := by decide
theorem test_wf_header_stop : headerLegal 0b11100101#8 = false := by decide
theorem test_wf_header_park : headerLegal 0b00100101#8 = false := by decide
theorem test_wf_header_parity : headerLegal 0b10000101#8 = false := by decide
theorem test_wf_header_idcode : headerLegal 0b10100101#8 = true := by decide

/-! ## Decoding: each row by a word written out from spec/30_encoding.md R91, R92 (commands) and R95, R97 (headers) -/

theorem test_decode_lineReset : decodeCommand ⟨0b1#32, 7, 9⟩ = some .lineReset := by decide
theorem test_decode_wireRead : decodeCommand ⟨0b1110010#32, 7, 9⟩ = some (.wireRead true 3) := by decide
theorem test_decode_wireRead_ctrlstat : decodeCommand ⟨0b0100010#32, 7, 9⟩ = some (.wireRead false 1) := by decide
theorem test_decode_wireWrite : decodeCommand ⟨0b1000011#32, 7, 9⟩ = some (.wireWrite false 2 9) := by decide
theorem test_decode_wireWrite_tar : decodeCommand ⟨0b0110011#32, 7, 9⟩ = some (.wireWrite true 1 9) := by decide
theorem test_decode_selectBank :
    decodeCommand ⟨0b000000011111001100000100#32, 7, 9⟩ = some (.selectBank 0x01 0xF3) := by decide
theorem test_decode_powerUp : decodeCommand ⟨0b101#32, 7, 9⟩ = some .powerUp := by decide
theorem test_decode_memRead : decodeCommand ⟨0b110#32, 0x20000003, 9⟩ = some (.memRead 0x20000003) := by decide
theorem test_decode_memWrite :
    decodeCommand ⟨0b111#32, 0x20000000, 0xA5A5A5A5⟩ = some (.memWrite 0x20000000 0xA5A5A5A5) := by decide
theorem test_decode_memWriteHalf :
    decodeCommand ⟨0b1000#32, 0x08000002, 0xFFFFBEEF⟩ = some (.memWriteHalf 0x08000002 0xBEEF) := by decide
theorem test_decode_reqDpWriteAbort : decodeFrame 0b10000001#8 9 = some (.reqDpWriteAbort 9) := by decide
theorem test_decode_reqDpWriteCtrlstat : decodeFrame 0b10101001#8 9 = some (.reqDpWriteCtrlstat 9) := by decide
theorem test_decode_reqDpWriteSelect : decodeFrame 0b10110001#8 9 = some (.reqDpWriteSelect 9) := by decide
theorem test_decode_reqDpWrite0C : decodeFrame 0b10011001#8 9 = some (.reqDpWrite0C 9) := by decide
theorem test_decode_reqDpReadIdcode : decodeFrame 0b10100101#8 9 = some .reqDpReadIdcode := by decide
theorem test_decode_reqDpReadCtrlstat : decodeFrame 0b10001101#8 9 = some .reqDpReadCtrlstat := by decide
theorem test_decode_reqDpRead08 : decodeFrame 0b10010101#8 9 = some .reqDpRead08 := by decide
theorem test_decode_reqDpReadRdbuff : decodeFrame 0b10111101#8 9 = some .reqDpReadRdbuff := by decide
theorem test_decode_reqApWriteCsw : decodeFrame 0b10100011#8 9 = some (.reqApWriteCsw 9) := by decide
theorem test_decode_reqApWriteTar : decodeFrame 0b10001011#8 9 = some (.reqApWriteTar 9) := by decide
theorem test_decode_reqApWrite08 : decodeFrame 0b10010011#8 9 = some (.reqApWrite08 9) := by decide
theorem test_decode_reqApWriteDrw : decodeFrame 0b10111011#8 9 = some (.reqApWriteDrw 9) := by decide
theorem test_decode_reqApReadCsw : decodeFrame 0b10000111#8 9 = some .reqApReadCsw := by decide
theorem test_decode_reqApReadTar : decodeFrame 0b10101111#8 9 = some .reqApReadTar := by decide
theorem test_decode_reqApRead08 : decodeFrame 0b10110111#8 9 = some .reqApRead08 := by decide
theorem test_decode_reqApReadDrw : decodeFrame 0b10011111#8 9 = some .reqApReadDrw := by decide
theorem test_decode_illegal : decodeCommand ⟨0x000000F2#32, 0, 0⟩ = none := by decide
theorem test_table_word_command : decodeTableWord 32 0x00000004 = some (.selectBank 0 0) := by decide
theorem test_table_word_header : decodeTableWord 8 0xBB = some (.reqApWriteDrw 0) := by decide

/-! ## Values (V-P, V-M7) -/

theorem test_parity : [0xFFFFFFFF#32, 0xA5A5A5A5#32, 0x80000000#32, 0x7FFFFFFF#32, 0x2BA01477#32, 0x12345678#32,
    0xBEEF0000#32].map parity32 = bits [0, 0, 1, 1, 0, 1, 1] := by decide
theorem test_halfLane_odd : halfLane 0x08000003#32 0xBEEF#16 = 0xBEEF0000#32 ∧
    halfLane 0x08000001#32 0xBEEF#16 = 0x0000BEEF#32 := by decide
theorem test_cswWord : cswWord ⟨false, 0x8C0000#26, 0⟩ = 0x23000002#32 := by decide

/-! ## LINE_RESET -/

/-- V-L1: 96 cycles from block reset, `status_word` 0x00000280. -/
theorem test_lineReset_from_reset : passes (fun t => t.statusWord = 0x00000280#32 && t.pins = ⟨true, true, true, false⟩ &&
    decide (t.obs.trace = [.setMode .swclk .output, .setMode .swdio .output] ++ driven (List.replicate 64 1) ++
      driven [0, 1, 1, 1, 1, 0, 0, 1, 1, 1, 1, 0, 0, 1, 1, 1] ++ driven (List.replicate 16 0)))
    (step (offer 1 0 0 base)) = true := by decide +kernel

/-- V-L2: after a read, SWDIO goes to output first; `dap_ready` is cleared and the cache kept. -/
theorem test_lineReset_keeps_cache : passes (fun t => t.statusWord = 0x00000A80#32 && cycles t == 96 &&
    decide (t.obs.trace.take 2 = [.setMode .swdio .output, .drive true]))
    (step (offer 1 0 0 { ready bank0 [] with pins := ⟨true, true, false, false⟩ })) = true := by decide +kernel

/-! ## WIRE_READ, WIRE_WRITE -/

/-- V-R1: the word sampled, over the trace of header 0x8D. -/
theorem test_wireRead_ctrlstat : passes (fun t => t.rsp = ⟨true, 0, 0b001, 0x50000000#32⟩ &&
    decide (t.obs.trace = driven [1, 0, 1, 1, 0, 0, 0, 1] ++ [.setMode .swdio .input] ++ sampled [1, 1, 0, 0] ++
      sampled (List.replicate 28 0 ++ [1, 0, 1, 0]) ++ sampled [0, 1, 1]))
    (step (offer 0x22 0 0 (linked (rd 0x50000000#32 false)))) = true := by decide +kernel

/-- V-R2: a parity mismatch, after 47 cycles; `status_word` 0x00000292. -/
theorem test_wireRead_parity : passes (fun t => t.rsp = ⟨true, 2, 0b001, 0x2BA01477#32⟩ && cycles t == 47 &&
    t.statusWord = 0x00000292#32) (step (offer 0x22 0 0 (linked (rd 0x2BA01477#32 true)))) = true := by decide +kernel

/-- V-W1: the trace of WIRE_WRITE DP, ABORT, 0x1E. -/
theorem test_wireWrite_abort : passes (fun t => t.rsp = ⟨true, 0, 0b001, 0#32⟩ && t.pins = ⟨true, true, true, false⟩ &&
    decide (t.obs.trace = driven [1, 0, 0, 0, 0, 0, 0, 1] ++ [.setMode .swdio .input] ++ sampled [1, 1, 0, 0, 1] ++
      [.setMode .swdio .output] ++ driven ([0, 1, 1, 1, 1] ++ List.replicate 27 0) ++ driven [0, 0]))
    (step (offer 3 0 0x1E (linked wr))) = true := by decide +kernel

/-- V-W4: a raw SELECT write that fails its ACK: 12 cycles, cache invalid. -/
theorem test_wireWrite_select_fault : passes (fun t => t.rsp = ⟨true, 1, 0b100, 0#32⟩ && cycles t == 12 &&
    t.cache = ⟨false, 0, 0⟩ && t.pins.swdioOe = false) (step (offer 0x43 0 0 (ready bank0 (bits [1, 0, 0, 1])))) = true := by
  decide +kernel

/-! ## SELECT_BANK, POWER_UP -/

/-- V-S1: a miss writes 0x010000F0; `status_word` 0xF0010A90. -/
theorem test_selectBank_miss : passes (fun t => t.statusWord = 0xF0010A90#32 && sent t = [(0xB1#8, 0x010000F0#32)] &&
    cycles t == 47) (step (offer 0x0001F304 0 0 (linked wr))) = true := by decide +kernel

/-- V-S2: SELECT_BANK 0x01, 0xF3 where the cache holds 0xF0 is a hit: no cycle, (OK, 0b000, 0). -/
theorem test_selectBank_hit : passes (fun t => t.rsp = ⟨true, 0, 0b000, 0#32⟩ && t.obs.trace.isEmpty)
    (step (offer 0x0001F304 0 0 { linked [] with cache := ⟨true, 0x01, 0xF0⟩ })) = true := by decide +kernel

/-- V-U1: five frames, 235 cycles, IDCODE as the result; `status_word` 0x00000E90. -/
theorem test_powerUp : passes (fun t => t.statusWord = 0x00000E90#32 && t.rsp.data = 0x2BA01477#32 && cycles t == 235 &&
    sent t = [(0xA5#8, 0x2BA01477#32), (0xA9#8, 0x50000000#32), (0x81#8, 0x0000001E#32), (0xB1#8, 0#32), (0xA3#8, 2#32)])
    (step (offer 5 0 0 (linked (rd 0x2BA01477#32 false ++ wr ++ wr ++ wr ++ wr)))) = true := by decide +kernel

/-- V-U4: the CSW frame answers FAULT: 200 cycles, the cache valid, `dap_ready` 0; `status_word` 0x00000AC1. -/
theorem test_powerUp_csw_fault : passes (fun t => t.statusWord = 0x00000AC1#32 && cycles t == 200)
    (step (offer 5 0 0 (linked (rd 0x2BA01477#32 false ++ wr ++ wr ++ wr ++ bits [1, 0, 0, 1])))) = true := by decide +kernel

/-! ## Memory commands -/

/-- V-M2: the RDBUFF word is the result, 141 cycles. -/
theorem test_memRead : passes (fun t => t.rsp = ⟨true, 0, 0b001, 0xA5A5A5A5#32⟩ && cycles t == 141 &&
    sent t = [(0x8B#8, 0x20000000#32), (0x9F#8, 0#32), (0xBD#8, 0xA5A5A5A5#32)])
    (step (offer 6 0x20000000 0 (ready bank0 (wr ++ rd 0 false ++ rd 0xA5A5A5A5#32 false)))) = true := by decide +kernel

/-- V-M3, V-M4: on a miss the SELECT write comes first; the discarded DRW read's parity is checked, RDBUFF is not read. -/
theorem test_memRead_miss_parity : passes (fun t => t.rsp = ⟨true, 2, 0b001, 7#32⟩ && t.cache = bank0 && cycles t == 141 &&
    sent t = [(0xB1#8, 0#32), (0x8B#8, 0x20000003#32), (0x9F#8, 7#32)])
    (step (offer 6 0x20000003 0 (ready noBank (wr ++ wr ++ rd 7 false)))) = true := by decide +kernel

/-- V-M1: two frames, 94 cycles. -/
theorem test_memWrite : passes (fun t => t.rsp = ⟨true, 0, 0b001, 0#32⟩ && cycles t == 94 &&
    sent t = [(0x8B#8, 0x20000000#32), (0xBB#8, 0xA5A5A5A5#32)])
    (step (offer 7 0x20000000 0xA5A5A5A5 (ready bank0 (wr ++ wr)))) = true := by decide +kernel

/-- V-M5: the DRW frame answers WAIT: 59 cycles, `status_word` 0x00000EA1. -/
theorem test_memWrite_wait : passes (fun t => t.statusWord = 0x00000EA1#32 && cycles t == 59)
    (step (offer 7 0x20000000 0x12345678 (ready bank0 (wr ++ bits [1, 0, 1, 0])))) = true := by decide +kernel

/-- V-M6, V-M7: four frames, the halfword in lane 1, `cmd.data[31:16]` ignored. -/
theorem test_memWriteHalf : passes (fun t => t.rsp = ⟨true, 0, 0b001, 0#32⟩ && cycles t == 188 &&
    sent t = [(0xA3#8, 1#32), (0x8B#8, 0x08000002#32), (0xBB#8, 0xBEEF0000#32), (0xA3#8, 2#32)])
    (step (offer 8 0x08000002 0xFFFFBEEF (ready bank0 (wr ++ wr ++ wr ++ wr)))) = true := by decide +kernel

/-- V-M8: the TAR frame answers FAULT: 59 cycles, and CSW is not restored. -/
theorem test_memWriteHalf_fault : passes (fun t => t.rsp = ⟨true, 1, 0b100, 0#32⟩ && cycles t == 59 &&
    sent t = [(0xA3#8, 1#32), (0x8B#8, 0x08000000#32)])
    (step (offer 8 0x08000000 5 (ready bank0 (wr ++ bits [1, 0, 0, 1])))) = true := by decide +kernel

/-! ## Request headers: one frame with the header of spec/30_encoding.md R97 -/

theorem test_run_reqDpWriteAbort : passes (fun t => sent t = [(0x81#8, 0x1E#32)] && cycles t == 47)
    (exec (.reqDpWriteAbort 0x1E) (linked wr)) = true := by decide +kernel
theorem test_run_reqDpWriteCtrlstat : passes (fun t => sent t = [(0xA9#8, 0x50000000#32)] && cycles t == 47)
    (exec (.reqDpWriteCtrlstat 0x50000000) (linked wr)) = true := by decide +kernel
/-- V-W3: a raw SELECT write leaves the cache invalid although its ACK is OK. -/
theorem test_run_reqDpWriteSelect : passes (fun t => sent t = [(0xB1#8, 0#32)] && t.cache.valid = false)
    (exec (.reqDpWriteSelect 0) (ready bank0 wr)) = true := by decide +kernel
theorem test_run_reqDpWrite0C : passes (fun t => sent t = [(0x99#8, 0xDEADBEEF#32)] && cycles t == 47)
    (exec (.reqDpWrite0C 0xDEADBEEF) (linked wr)) = true := by decide +kernel
theorem test_run_reqDpReadIdcode : passes (fun t => sent t = [(0xA5#8, 0x2BA01477#32)] && t.rsp.data = 0x2BA01477#32)
    (exec .reqDpReadIdcode (linked (rd 0x2BA01477#32 false))) = true := by decide +kernel
theorem test_run_reqDpReadCtrlstat : passes (fun t => sent t = [(0x8D#8, 1#32)] && t.rsp = ⟨true, 0, 0b001, 1#32⟩)
    (exec .reqDpReadCtrlstat (linked (rd 1 true))) = true := by decide +kernel
theorem test_run_reqDpRead08 : passes (fun t => sent t = [(0x95#8, 0#32)] && cycles t == 47)
    (exec .reqDpRead08 (linked (rd 0 false))) = true := by decide +kernel
theorem test_run_reqDpReadRdbuff : passes (fun t => sent t = [(0xBD#8, 5#32)] && t.rsp.data = 5#32)
    (exec .reqDpReadRdbuff (linked (rd 5 false))) = true := by decide +kernel
theorem test_run_reqApWriteCsw : passes (fun t => sent t = [(0xA3#8, 2#32)] && t.cache = bank0)
    (exec (.reqApWriteCsw 2) (ready bank0 wr)) = true := by decide +kernel
theorem test_run_reqApWriteTar : passes (fun t => sent t = [(0x8B#8, 0x20000000#32)] && cycles t == 47)
    (exec (.reqApWriteTar 0x20000000) (linked wr)) = true := by decide +kernel
theorem test_run_reqApWrite08 : passes (fun t => sent t = [(0x93#8, 3#32)] && cycles t == 47)
    (exec (.reqApWrite08 3) (linked wr)) = true := by decide +kernel
theorem test_run_reqApWriteDrw : passes (fun t => sent t = [(0xBB#8, 3#32)] && cycles t == 47)
    (exec (.reqApWriteDrw 3) (linked wr)) = true := by decide +kernel
theorem test_run_reqApReadCsw : passes (fun t => sent t = [(0x87#8, 3#32)] && t.rsp.data = 3#32)
    (exec .reqApReadCsw (linked (rd 3 false))) = true := by decide +kernel
theorem test_run_reqApReadTar : passes (fun t => sent t = [(0xAF#8, 3#32)] && t.rsp.data = 3#32)
    (exec .reqApReadTar (linked (rd 3 false))) = true := by decide +kernel
theorem test_run_reqApRead08 : passes (fun t => sent t = [(0xB7#8, 3#32)] && t.rsp.data = 3#32)
    (exec .reqApRead08 (linked (rd 3 false))) = true := by decide +kernel
theorem test_run_reqApReadDrw : passes (fun t => sent t = [(0x9F#8, 3#32)] && t.rsp.data = 3#32)
    (exec .reqApReadDrw (linked (rd 3 false))) = true := by decide +kernel

/-! ## Preconditions, transport failure, block reset -/

/-- V-D: ILLEGAL_COMMAND after block reset; `status_word` 0x00000086. -/
theorem test_illegal : passes (fun t => t.statusWord = 0x00000086#32 && t.obs.trace.isEmpty) (step (offer 0x81 0 0 base)) = true := by
  decide +kernel

/-- V-R6: NOT_INITIALISED; `status_word` 0x00000084. -/
theorem test_not_initialised : passes (fun t => t.statusWord = 0x00000084#32 && t.obs.trace.isEmpty)
    (step (offer 2 0 0 base)) = true := by decide +kernel

/-- V-M10: NOT_POWERED; `status_word` 0x00000285. -/
theorem test_not_powered : passes (fun t => t.statusWord = 0x00000285#32 && t.obs.trace.isEmpty)
    (step (offer 6 0 0 (linked []))) = true := by decide +kernel

/-- V-T1: the channel fails at the fifth bit of the TAR header; `status_word` 0x00000883. -/
theorem test_transport : passes (fun t => t.statusWord = 0x00000883#32 &&
    decide (t.obs.trace = driven [1, 1, 0, 1] ++ [.linkFail]))
    (step (offer 7 0x20000000 1 { ready bank0 [] with
      par := ⟨true, 0, 0⟩, env := { base.env with linkFaults := [4] } })) = true := by decide +kernel

/-- V-T2: block reset in the third frame of POWER_UP: no response, both pins released. With H = 1 a bit cycle has three instants
and a mode change one, and two come before the command starts, so instant 300 is in the frame after bit cycle 94. -/
theorem test_blockReset : passes (fun t => t.statusWord = 0#32 && t.pins = ⟨false, true, false, true⟩ && t.seq = .idle &&
    sent t = [(0xA5#8, 0x2BA01477#32), (0xA9#8, 0x50000000#32)] && decide (94 < cycles t) && decide (cycles t < 141))
    (step (offer 5 0 0 { linked [] with
      env := { base.env with levels := rd 0x2BA01477#32 false ++ wr ++ wr ++ wr ++ wr, resets := [300] } })) = true := by
  decide +kernel

/-- R230, R121: block reset after 5 of the 10 counts of SWCLK's high half in the first bit cycle of LINE_RESET. -/
theorem test_blockReset_inside_a_bit_cycle : passes (fun t => t.statusWord = 0#32 && t.obs.trace.isEmpty &&
    t.obs.elapsed == 15 && decide (t.obs.wave = [⟨true, false, true, true⟩, ⟨true, true, true, true⟩]))
    (step (offer 1 0 0 { linked [] with par := ⟨false, 0, 9⟩, env := { base.env with resets := [18] } })) = true := by
  decide +kernel

/-- R82: the frame of a raw SELECT write, placed by its header, leaves the cache invalid; so does its failure. -/
theorem test_raw_select_header : passes (fun t => t.cache.valid = false && t.rsp = ⟨true, 0, 0b001, 0#32⟩)
    (step ((ready bank0 wr).withFetchWord 8 0xB1)) = true ∧
    passes (fun t => t.cache.valid = false && t.rsp = ⟨true, 1, 0b100, 0#32⟩)
    (step ((ready bank0 (bits [1, 0, 0, 1])).withFetchWord 8 0xB1)) = true := by decide +kernel

/-- R205, R129: the channel fails at TRN1's sample, behind the SetMode of the same tick. -/
theorem test_transport_behind_setMode : passes (fun t => t.rsp = ⟨true, 3, 0b000, 0#32⟩ && t.linkUp == false &&
    decide (t.obs.trace = driven [1, 0, 1, 0, 0, 1, 0, 1] ++ [.setMode .swdio .input, .linkFail]))
    (step (offer 2 0 0 { linked [] with
      par := ⟨true, 0, 0⟩, env := { base.env with linkFaults := [9] } })) = true := by decide +kernel

/-- R201: a placed write header responds with data 0, whatever word a command before it left. -/
theorem test_placed_write_header : passes (fun t => t.rsp = ⟨true, 0, 0b001, 0#32⟩)
    (step ({ linked wr with result := 0xDEADBEEF#32 }.withFetchWord 8 0xBB)) = true := by decide +kernel

/-! ## States and operands that meet the hypotheses of each statement -/

/-- A block inside a command, before frame `k`, with its registers loaded; the cache valid for the last SELECT written. -/
def inside (c : Command) (k : Nat) (op : FrameOp) (cache : Cache) (levels : List Bool) : State :=
  { ready cache levels with
    cmd := c, busy := true, seq := .pos k .header 0, dp := ⟨op.data, 0, 0, false, op.request.header⟩,
    obs := { base.obs with frames := [⟨0xB1#8, 0#32, 0b001#3, .completed⟩] } }

/-- An idle block with a command offered, the cache valid for the last SELECT written. -/
def idleReady : State :=
  { offer 6 0 0 (ready bank0 []) with obs := { base.obs with frames := [⟨0xB1#8, 0#32, 0b001#3, .completed⟩] } }

/-- A block inside a frame with the given request, its SWDIO in input mode, the given ACK bits received. -/
def tickingAt (ph : Phase) (n : Nat) (r : Request) (ack : BitVec 3) (levels : List Bool) : State :=
  { linked levels with
    busy := true, pins := ⟨true, true, false, false⟩, seq := .pos 0 ph n, dp := ⟨5, 0, ack, false, r.header⟩ }

theorem hyp_UnusedOperandBitsAreIgnored :
    (0x1#32).extractLsb' 0 4 ∈ [1#4, 2#4, 4#4, 5#4] ∧ (0x2#32).extractLsb' 0 4 ∈ [1#4, 2#4, 4#4, 5#4] ∧
    (0x4#32).extractLsb' 0 4 ∈ [1#4, 2#4, 4#4, 5#4] ∧ (0x5#32).extractLsb' 0 4 ∈ [1#4, 2#4, 4#4, 5#4] ∧
    (0x3#32).extractLsb' 0 4 = 3#4 ∧ (0x6#32).extractLsb' 0 4 = 6#4 ∧ (0x8#32).extractLsb' 0 4 = 8#4 ∧
    (0xFFFFBEEF#32).extractLsb' 0 16 = (0xBEEF#32).extractLsb' 0 16 := by decide

theorem hyp_BitsTravelLeastSignificantFirst_lists : (serialise 0x81#8).length = 8 ∧ 7 < 8 := by decide

/-- A header bit, a data bit of a write, a data bit of a read, an ACK bit that is not the last, and the last of ACK OK, at the
ends of their ranges. -/
theorem hyp_BitsTravelLeastSignificantFirst_cycles :
    (∀ n ∈ [0, 7], ∃ s : State, s.quiet ∧ n < 8 ∧ s.seq = .pos 0 .header n) ∧
    (∀ n ∈ [0, 31], ∃ s : State, s.quiet ∧ n < 32 ∧ s.seq = .pos 0 .data n ∧ s.dp.reading = false) ∧
    (∀ n ∈ [0, 31], ∃ s : State, s.quiet ∧ n < 32 ∧ s.seq = .pos 0 .data n ∧ s.dp.reading = true ∧
      s.pins.swdioOe = false ∧ s.env.levels = true :: []) ∧
    (∀ n ∈ [0, 1], ∃ s : State, s.quiet ∧ s.seq = .pos 0 .ack n ∧ n < 2 ∧ s.pins.swdioOe = false ∧
      s.env.levels = true :: []) ∧
    ∃ s : State, s.quiet ∧ s.seq = .pos 0 .ack 2 ∧ setBit s.dp.ack 2 false = ackOk ∧ s.pins.swdioOe = false ∧
      s.env.levels = false :: [] :=
  ⟨fun n h => ⟨tickingAt .header n ⟨true, false, 3⟩ 0 [], ⟨rfl, rfl⟩, by revert n; decide, rfl⟩,
    fun n h => ⟨tickingAt .data n ⟨true, false, 3⟩ 0 [], ⟨rfl, rfl⟩, by revert n; decide, rfl,
      by change (Request.header ⟨true, false, 3⟩).getLsbD 2 = false; decide⟩,
    fun n h => ⟨tickingAt .data n ⟨true, true, 3⟩ 0 [true], ⟨rfl, rfl⟩, by revert n; decide, rfl,
      by change (Request.header ⟨true, true, 3⟩).getLsbD 2 = true; decide, rfl, rfl⟩,
    fun n h => ⟨tickingAt .ack n ⟨true, true, 3⟩ 0 [true], ⟨rfl, rfl⟩, rfl, by revert n; decide, rfl, rfl⟩,
    tickingAt .ack 2 ⟨true, true, 3⟩ 0b001 [false], ⟨rfl, rfl⟩, rfl, by decide, rfl, rfl⟩

theorem hyp_HalfwordLane : (0x08000001#32).getLsbD 1 = false ∧ (0x08000002#32).getLsbD 1 = true := by decide

theorem hyp_DriveBitWaveform : (linked []).quiet ∧ (linked []).pins.swdioOe = true := ⟨⟨rfl, rfl⟩, rfl⟩

theorem hyp_SampleBitWaveform : (base.quiet ∧ base.pins.swdioOe = false) ∧
    ({ base with env := { base.env with levels := [true, false] } } : State).env.levels = true :: [false] :=
  ⟨⟨⟨rfl, rfl⟩, rfl⟩, rfl⟩

theorem hyp_SetModeIsAnEventOnChange : base.quiet := ⟨rfl, rfl⟩

theorem hyp_BitCycleCounts_lineReset : base.quiet ∧ base.seq = .idle := ⟨⟨rfl, rfl⟩, rfl⟩

theorem hyp_BitCycleCounts_notStarted :
    listsFrames .powerUp = true ∧ base.seq = .idle ∧ base.linkUp = false ∧
      listsFrames (.memRead 0) = true ∧ (linked []).seq = .idle ∧ needsPower (.memRead 0) = true ∧
      (linked []).dapReady = false := ⟨rfl, rfl, rfl, rfl, rfl, rfl, rfl⟩

/-- A WIRE_READ with each ending: OK, PARITY_ERROR and ACK_FAULT. -/
theorem hyp_BitCycleCounts_answered :
    ∀ x ∈ [(Answer.read true 1#32 true false true, statusOk), (Answer.read true 1#32 false false true, statusParityError),
        (Answer.bad true 0b010, statusAckFault)],
      let s := linked ([x.1].flatMap Answer.levels ++ [])
      s.quiet ∧ s.seq = .idle ∧ listsFrames (.wireRead false 0) = true ∧ s.linkUp = true ∧
        (needsPower (.wireRead false 0) = true → s.dapReady = true) ∧
        Answered (frames s.par (.wireRead false 0)) [x.1] (startCache (.wireRead false 0) s.cache) ∧
        s.env.levels = [x.1].flatMap Answer.levels ++ [] ∧
        passes (fun u => u.rsp.status = x.2) (exec (.wireRead false 0) s) = true := by
  intro x hx
  refine ⟨⟨rfl, rfl⟩, rfl, rfl, rfl, fun h => by simp [needsPower] at h, ?_, rfl, ?_⟩
  · revert x
    simp [Answered, frames, framesWireRead, FrameOp.hits, FrameOp.request, ackOk]
  · revert x
    decide +kernel

theorem hyp_StepRunsTheOfferedCommand :
    let s := { offer 6 4 0 (ready bank0 []) with env := { base.env with offers := [⟨6, 4, 0⟩], resets := [2] } }
    lands 2 s.env.resets = none ∧ s.seq = .idle ∧ s.busy = false ∧ s.env.offers = ⟨6, 4, 0⟩ :: [] ∧
      decodeCommand ⟨6, 4, 0⟩ = some (.memRead 4) := ⟨rfl, rfl, rfl, rfl, by decide⟩

theorem hyp_StepRunsTheFrameItStandsBefore :
    let s := inside ⟨0x22, 0, 0⟩ 0 (.read false 1 true) bank0 []
    due s.env.resets = false ∧ s.seq = .pos 0 .header 0 ∧ decodeFrame s.dp.hdr s.dp.tx = some .reqDpReadCtrlstat :=
  ⟨rfl, rfl, by decide⟩

theorem hyp_CommandPortWaits_idle :
    due base.env.resets = false ∧ base.seq = .idle ∧ base.busy = false ∧ base.env.offers = [] := ⟨rfl, rfl, rfl, rfl⟩

theorem hyp_CommandPortWaits_busy :
    Instr.powerUp.request = none ∧ (inside ⟨0x22, 0, 0⟩ 0 (.read false 1 true) bank0 []).seq ≠ .idle :=
  ⟨rfl, by simp [inside]⟩

theorem hyp_BlockResetGivesTheResetValues :
    due ({ linked [] with env := { base.env with resets := [0] } } : State).env.resets = true := rfl

/-- Before a wire event; SWDIO is in output mode, so that a SetMode to input is one. -/
theorem hyp_BlockResetAbandonsTheCommand_event :
    let s := { inside ⟨0x22, 0, 0⟩ 0 (.read false 1 true) bank0 [] with env := { base.env with resets := [0, 3] } }
    due s.env.resets = true ∧ s.pins.isOut .swdio ≠ false ∧ s.seq ≠ .idle := ⟨rfl, by decide, by simp [inside]⟩

/-- H = 2: the first and the last count of the low half, and of the high half. -/
theorem hyp_BlockResetAbandonsTheCommand_cycle : ∀ n ∈ [0, 1, 2, 3],
    let s : State := { linked [] with par := ⟨true, 0, 1⟩, env := { base.env with resets := [n + 1, 7] } }
    s.pins.swdioOe = true ∧ (s.pins.setMode .swdio false).swdioOe = false ∧ s.linkFailsNow = false ∧
      s.env.resets = (n + 1) :: [7] ∧ n < 2 * halfPeriod s.par := by decide

theorem hyp_BlockResetAbandonsTheCommand_accepted :
    let s := { offer 6 4 0 (ready bank0 []) with env := { base.env with offers := [⟨6, 4, 0⟩], resets := [1] } }
    s.seq = .idle ∧ s.busy = false ∧ s.env.offers = ⟨6, 4, 0⟩ :: [] ∧ s.env.resets = 1 :: [] := ⟨rfl, rfl, rfl, rfl⟩

theorem hyp_IllegalCommandChangesOnlyTheResponse :
    let s := offer 0x81 4 5 (ready bank0 [])
    lands 2 s.env.resets = none ∧ s.seq = .idle ∧ s.busy = false ∧ s.env.offers = ⟨0x81, 4, 5⟩ :: [] ∧
      Command.legal ⟨0x81, 4, 5⟩ = false := ⟨rfl, rfl, rfl, rfl, by decide⟩

theorem hyp_NotInitialisedBeforeLineReset :
    listsFrames .powerUp = true ∧ listsFrames (.memRead 0) = true ∧ base.seq = .idle ∧ base.linkUp = false :=
  ⟨rfl, rfl, rfl, rfl⟩

theorem hyp_NotPoweredBeforePowerUp :
    needsPower (.memRead 0) = true ∧ (linked []).seq = .idle ∧ (linked []).linkUp = true ∧ (linked []).dapReady = false :=
  ⟨rfl, rfl, rfl, rfl⟩

theorem hyp_LineResetRuns : base.quiet ∧ base.seq = .idle := ⟨⟨rfl, rfl⟩, rfl⟩

theorem hyp_WireReadReturnsTheWord :
    let s := linked (readLevels true 1#32 (parity32 1#32) false true ++ [true])
    s.quiet ∧ s.seq = .idle ∧ s.linkUp = true ∧
      s.env.levels = readLevels true 1#32 (parity32 1#32) false true ++ [true] := ⟨⟨rfl, rfl⟩, rfl, rfl, rfl⟩

theorem hyp_WireReadParityError :
    let s := linked (readLevels true 1#32 false false true ++ [])
    s.quiet ∧ s.seq = .idle ∧ s.linkUp = true ∧ false ≠ parity32 1#32 ∧
      s.env.levels = readLevels true 1#32 false false true ++ [] := ⟨⟨rfl, rfl⟩, rfl, rfl, by decide, rfl⟩

theorem hyp_RawCommandAckFault :
    let s := linked (ackLevels true 0b010#3 ++ [])
    s.quiet ∧ s.seq = .idle ∧ s.linkUp = true ∧ 0b010#3 ≠ ackOk ∧ s.env.levels = ackLevels true 0b010#3 ++ [] :=
  ⟨⟨rfl, rfl⟩, rfl, rfl, by decide, rfl⟩

theorem hyp_WireWriteSendsTheWord :
    let s := ready bank0 (writeLevels true false ++ [])
    s.quiet ∧ s.seq = .idle ∧ s.linkUp = true ∧ s.env.levels = writeLevels true false ++ [] :=
  ⟨⟨rfl, rfl⟩, rfl, rfl, rfl⟩

theorem hyp_SelectBankHitEmitsNothing :
    let s : State := { linked [] with cache := ⟨true, 0x01, 0xF0⟩ }
    s.seq = .idle ∧ s.linkUp = true ∧ s.cache.valid = true ∧ s.cache.ap = 0x01#8 ∧ s.cache.bank = 0xF3#8 &&& 0xF0#8 :=
  ⟨rfl, rfl, rfl, rfl, by decide⟩

theorem hyp_SelectBankMissWritesSelect :
    let s := ready bank0 (writeLevels true false ++ [])
    s.quiet ∧ s.seq = .idle ∧ s.linkUp = true ∧
      ¬(s.cache.valid = true ∧ s.cache.ap = 0x01#8 ∧ s.cache.bank = 0x03#8 &&& 0xF0#8) ∧
      ¬(s.cache.valid = true ∧ s.cache.ap = 0x00#8 ∧ s.cache.bank = 0x10#8 &&& 0xF0#8) ∧
      s.env.levels = writeLevels true false ++ [] := ⟨⟨rfl, rfl⟩, rfl, rfl, by decide, by decide, rfl⟩

theorem hyp_SelectBankAckFaultInvalidates :
    let s := ready bank0 (ackLevels true 0b100#3 ++ [])
    s.quiet ∧ s.seq = .idle ∧ s.linkUp = true ∧ 0b100#3 ≠ ackOk ∧
      ¬(s.cache.valid = true ∧ s.cache.ap = 0x01#8 ∧ s.cache.bank = 0x00#8 &&& 0xF0#8) ∧
      s.env.levels = ackLevels true 0b100#3 ++ [] := ⟨⟨rfl, rfl⟩, rfl, rfl, by decide, by decide, rfl⟩

/-- The answers to POWER_UP's first four frames. -/
def powerUpLevels (rest : List Bool) : List Bool :=
  readLevels true 1#32 (parity32 1#32) false true ++ (writeLevels true false ++ (writeLevels true true ++
    (writeLevels false false ++ rest)))

theorem hyp_PowerUpRuns :
    let s := linked (powerUpLevels (writeLevels true false ++ []))
    s.quiet ∧ s.seq = .idle ∧ s.linkUp = true ∧
      s.env.levels = readLevels true 1#32 (parity32 1#32) false true ++ (writeLevels true false ++ (writeLevels true true ++
        (writeLevels false false ++ (writeLevels true false ++ [])))) := ⟨⟨rfl, rfl⟩, rfl, rfl, rfl⟩

theorem hyp_PowerUpCswFaultLeavesNotReady :
    let s := linked (powerUpLevels (ackLevels true 0b100#3 ++ []))
    s.quiet ∧ s.seq = .idle ∧ s.linkUp = true ∧ 0b100#3 ≠ ackOk ∧
      s.env.levels = readLevels true 1#32 (parity32 1#32) false true ++ (writeLevels true false ++ (writeLevels true true ++
        (writeLevels false false ++ (ackLevels true 0b100#3 ++ [])))) := ⟨⟨rfl, rfl⟩, rfl, rfl, by decide, rfl⟩

/-- The answers to TAR, DRW and RDBUFF. -/
def memReadLevels : List Bool :=
  writeLevels true false ++ (readLevels true 3#32 (parity32 3#32) false true ++
    (readLevels true 1#32 (parity32 1#32) true false ++ []))

theorem hyp_MemReadOnHit :
    let s := ready bank0 memReadLevels
    s.quiet ∧ s.seq = .idle ∧ s.linkUp = true ∧ s.dapReady = true ∧ s.cache.hit 0x00#8 0x00#8 = true ∧
      s.env.levels = writeLevels true false ++ (readLevels true 3#32 (parity32 3#32) false true ++
        (readLevels true 1#32 (parity32 1#32) true false ++ [])) := ⟨⟨rfl, rfl⟩, rfl, rfl, rfl, by decide, rfl⟩

theorem hyp_MemReadOnMiss :
    let s := ready noBank (writeLevels true true ++ memReadLevels)
    s.quiet ∧ s.seq = .idle ∧ s.linkUp = true ∧ s.dapReady = true ∧ s.cache.hit 0x00#8 0x00#8 = false ∧
      s.env.levels = writeLevels true true ++ (writeLevels true false ++ (readLevels true 3#32 (parity32 3#32) false true ++
        (readLevels true 1#32 (parity32 1#32) true false ++ []))) := ⟨⟨rfl, rfl⟩, rfl, rfl, rfl, by decide, rfl⟩

theorem hyp_MemReadChecksTheDiscardedRead :
    let s := ready bank0 (writeLevels true false ++ (readLevels true 7#32 false false true ++ []))
    s.quiet ∧ s.seq = .idle ∧ s.linkUp = true ∧ s.dapReady = true ∧ s.cache.hit 0x00#8 0x00#8 = true ∧
      false ≠ parity32 7#32 ∧ s.env.levels = writeLevels true false ++ (readLevels true 7#32 false false true ++ []) :=
  ⟨⟨rfl, rfl⟩, rfl, rfl, rfl, by decide, by decide, rfl⟩

theorem hyp_MemWriteOnHit :
    let s := ready bank0 (writeLevels true false ++ (writeLevels true true ++ []))
    s.quiet ∧ s.seq = .idle ∧ s.linkUp = true ∧ s.dapReady = true ∧ s.cache.hit 0x00#8 0x00#8 = true ∧
      s.env.levels = writeLevels true false ++ (writeLevels true true ++ []) :=
  ⟨⟨rfl, rfl⟩, rfl, rfl, rfl, by decide, rfl⟩

theorem hyp_MemWriteOnMiss :
    let s := ready ⟨true, 0x00, 0xF0⟩ (writeLevels true false ++ (writeLevels true true ++ (writeLevels false true ++ [])))
    s.quiet ∧ s.seq = .idle ∧ s.linkUp = true ∧ s.dapReady = true ∧ s.cache.hit 0x00#8 0x00#8 = false ∧
      s.env.levels = writeLevels true false ++ (writeLevels true true ++ (writeLevels false true ++ [])) :=
  ⟨⟨rfl, rfl⟩, rfl, rfl, rfl, by decide, rfl⟩

theorem hyp_MemWriteHalfOnHit :
    let s := ready bank0 (writeLevels true false ++ (writeLevels true true ++ (writeLevels true false ++
      (writeLevels true true ++ []))))
    s.quiet ∧ s.seq = .idle ∧ s.linkUp = true ∧ s.dapReady = true ∧ s.cache.hit 0x00#8 0x00#8 = true ∧
      s.env.levels = writeLevels true false ++ (writeLevels true true ++ (writeLevels true false ++
        (writeLevels true true ++ []))) := ⟨⟨rfl, rfl⟩, rfl, rfl, rfl, by decide, rfl⟩

theorem hyp_MemWriteHalfOnMiss :
    let s := ready noBank (writeLevels false true ++ (writeLevels true false ++ (writeLevels true true ++
      (writeLevels true false ++ (writeLevels true true ++ [])))))
    s.quiet ∧ s.seq = .idle ∧ s.linkUp = true ∧ s.dapReady = true ∧ s.cache.hit 0x00#8 0x00#8 = false ∧
      s.env.levels = writeLevels false true ++ (writeLevels true false ++ (writeLevels true true ++
        (writeLevels true false ++ (writeLevels true true ++ [])))) := ⟨⟨rfl, rfl⟩, rfl, rfl, rfl, by decide, rfl⟩

theorem hyp_MemWriteHalfFaultLeavesHalfwordMode :
    let s := ready bank0 (writeLevels true false ++ (writeLevels true true ++ (ackLevels true 0b010#3 ++ [])))
    s.quiet ∧ s.seq = .idle ∧ s.linkUp = true ∧ s.dapReady = true ∧ s.cache.hit 0x00#8 0x00#8 = true ∧ 0b010#3 ≠ ackOk ∧
      s.env.levels = writeLevels true false ++ (writeLevels true true ++ (ackLevels true 0b010#3 ++ [])) :=
  ⟨⟨rfl, rfl⟩, rfl, rfl, rfl, by decide, by decide, rfl⟩

/-- Answers to MEM_WRITE on a miss: SELECT and TAR OK, DRW WAIT. -/
def someAnswers : List Answer := [.write true false, .write true true, .bad true 0b010]

theorem hyp_CommandsFollowTheirFrameLists :
    let s := ready noBank (someAnswers.flatMap Answer.levels ++ [])
    s.quiet ∧ s.seq = .idle ∧ listsFrames (.memWrite 4 5) = true ∧ s.linkUp = true ∧
      (needsPower (.memWrite 4 5) = true → s.dapReady = true) ∧
      Answered (frames s.par (.memWrite 4 5)) someAnswers (startCache (.memWrite 4 5) s.cache) ∧
      s.env.levels = someAnswers.flatMap Answer.levels ++ [] := by
  refine ⟨⟨rfl, rfl⟩, rfl, rfl, rfl, fun _ => rfl, ?_, rfl⟩
  simp [Answered, someAnswers, frames, framesMemWrite, FrameOp.hits, FrameOp.request, selectRequest, startCache,
    forgetsBank, ready, noBank, Cache.hit, ackOk]

theorem hyp_SelectFramesOnlyOnMiss_selectBank :
    let s := linked ([Answer.write true false].flatMap Answer.levels ++ [])
    s.quiet ∧ s.seq = .idle ∧ s.linkUp = true ∧ (needsPower (.selectBank 1 0xF3) = true → s.dapReady = true) ∧
      Answered (frames s.par (.selectBank 1 0xF3)) [.write true false] s.cache ∧
      s.env.levels = [Answer.write true false].flatMap Answer.levels ++ [] := by
  refine ⟨⟨rfl, rfl⟩, rfl, rfl, ?_, ?_, rfl⟩
  · simp [needsPower]
  · simp [Answered, frames, framesSelectBank, FrameOp.hits, FrameOp.request, selectRequest, linked, base, State.reset, Cache.hit]

theorem hyp_SelectFramesOnlyOnMiss_memory :
    let s := ready bank0 ([Answer.write true false, .write true true].flatMap Answer.levels ++ [])
    s.quiet ∧ s.seq = .idle ∧ s.linkUp = true ∧ (needsPower (.memWrite 4 5) = true → s.dapReady = true) ∧
      (needsPower (.memWrite 4 5) = true ∧ (0x00#8 = 0x00#8) ∧ (0x00#8 = 0x00#8)) ∧
      Answered (frames s.par (.memWrite 4 5)) [.write true false, .write true true] s.cache ∧
      s.env.levels = [Answer.write true false, .write true true].flatMap Answer.levels ++ [] := by
  refine ⟨⟨rfl, rfl⟩, rfl, rfl, fun _ => rfl, ⟨rfl, rfl, rfl⟩, ?_, rfl⟩
  simp [Answered, frames, framesMemWrite, FrameOp.hits, FrameOp.request, ready, bank0, memAp,
    Cache.hit, bankBits]

theorem hyp_RequestOnIdleBlockIsTheRawCommand :
    base.seq = .idle ∧ (Instr.reqDpWriteAbort 5).request = some (⟨false, false, 0⟩, 5#32) := ⟨rfl, rfl⟩

theorem hyp_ReadRequestsComplete :
    let s := linked (readLevels true 1#32 (parity32 1#32) false true ++ [])
    Instr.reqApReadDrw.request = some (⟨true, true, 3⟩, 0#32) ∧ s.quiet ∧ s.seq = .idle ∧ s.linkUp = true ∧
      s.env.levels = readLevels true 1#32 (parity32 1#32) false true ++ [] := ⟨rfl, ⟨rfl, rfl⟩, rfl, rfl, rfl⟩

theorem hyp_WriteRequestsComplete :
    let s := linked (writeLevels true false ++ [])
    (Instr.reqApWriteDrw 5).request = some (⟨true, false, 3⟩, 5#32) ∧ s.quiet ∧ s.seq = .idle ∧ s.linkUp = true ∧
      s.env.levels = writeLevels true false ++ [] := ⟨rfl, ⟨rfl, rfl⟩, rfl, rfl, rfl⟩

/-- The last frame of a command: the RDBUFF read of MEM_READ. -/
theorem hyp_ReadFrameOfACommand_last :
    let s := inside ⟨6, 4, 0⟩ 3 (.read false 3 true) bank0 (readLevels true 1#32 (parity32 1#32) false true ++ [])
    s.quiet ∧ s.seq = .pos 3 .header 0 ∧ s.frames[3]? = some (.read false 3 true) ∧ s.frames[3 + 1]? = none ∧
      Instr.reqDpReadRdbuff.request = some (⟨false, true, 3⟩, 0#32) ∧
      s.env.levels = readLevels true 1#32 (parity32 1#32) false true ++ [] :=
  ⟨⟨rfl, rfl⟩, rfl, by decide, by decide, rfl, rfl⟩

/-- A frame with another after it: the DRW read of MEM_READ. -/
theorem hyp_ReadFrameOfACommand_next :
    let s := inside ⟨6, 4, 0⟩ 2 (.read true 3 false) bank0 (readLevels true 1#32 (parity32 1#32) false true ++ [])
    s.quiet ∧ s.seq = .pos 2 .header 0 ∧ s.frames[2]? = some (.read true 3 false) ∧
      s.frames[2 + 1]? = some (.read false 3 true) ∧ (FrameOp.read false 3 true).hits s.cache = false ∧
      Instr.reqApReadDrw.request = some (⟨true, true, 3⟩, 0#32) ∧
      s.env.levels = readLevels true 1#32 (parity32 1#32) false true ++ [] :=
  ⟨⟨rfl, rfl⟩, rfl, by decide, by decide, rfl, rfl, rfl⟩

/-- The last frame of MEM_WRITE: the DRW write. -/
theorem hyp_WriteFrameOfACommand_last :
    let s := inside ⟨7, 4, 5⟩ 2 (.write true 3 5) bank0 (writeLevels true false ++ [])
    s.quiet ∧ s.seq = .pos 2 .header 0 ∧ s.frames[2]? = some (.write true 3 5) ∧ s.frames[2 + 1]? = none ∧
      (FrameOp.write true 3 5).request.rnw = false ∧
      (Instr.reqApWriteDrw 5).request = some ((FrameOp.write true 3 5).request, (FrameOp.write true 3 5).data) ∧
      s.env.levels = writeLevels true false ++ [] := ⟨⟨rfl, rfl⟩, rfl, by decide, by decide, rfl, rfl, rfl⟩

/-- The SELECT write of MEM_WRITE on a miss, with the TAR write after it. -/
theorem hyp_WriteFrameOfACommand_select :
    let s := inside ⟨7, 4, 5⟩ 0 (.select 0 0) noBank (writeLevels true false ++ [])
    s.quiet ∧ s.seq = .pos 0 .header 0 ∧ s.frames[0]? = some (.select 0 0) ∧ s.frames[0 + 1]? = some (.write true 1 4) ∧
      (FrameOp.select 0 0).request.rnw = false ∧
      (Instr.reqDpWriteSelect 0).request = some ((FrameOp.select 0 0).request, (FrameOp.select 0 0).data) ∧
      s.env.levels = writeLevels true false ++ [] ∧ (FrameOp.write true 1 4).hits bank0 = false :=
  ⟨⟨rfl, rfl⟩, rfl, by decide, by decide, rfl, by decide, rfl, rfl⟩

theorem hyp_FailedAckEndsTheCommand :
    let s := inside ⟨7, 4, 5⟩ 0 (.select 0 0) noBank (ackLevels true 0b100#3 ++ [])
    s.quiet ∧ s.seq = .pos 0 .header 0 ∧ s.frames[0]? = some (.select 0 0) ∧
      (Instr.reqDpWriteSelect 0).request = some ((FrameOp.select 0 0).request, (FrameOp.select 0 0).data) ∧
      0b100#3 ≠ ackOk ∧ s.env.levels = ackLevels true 0b100#3 ++ [] :=
  ⟨⟨rfl, rfl⟩, rfl, by decide, by decide, by decide, rfl⟩

theorem hyp_ChannelFailureEndsTheCommand :
    let s : State := { inside ⟨7, 4, 5⟩ 0 (.select 0 0) noBank [] with
      par := ⟨true, 0, 0⟩, env := { base.env with linkFaults := [0] } }
    due s.env.resets = false ∧ due s.env.linkFaults = true ∧ s.par.phyCanFail = true ∧ s.pins.isOut .swdio ≠ false ∧
      s.seq ≠ .idle := ⟨rfl, rfl, rfl, by decide, by simp [inside]⟩

theorem hyp_NoTransportErrorUnlessTheChannelCanFail :
    let s : State := { linked [] with env := { base.env with linkFaults := [0] } }
    s.seq = .idle ∧ s.par.phyCanFail = false ∧ ∃ t, exec .powerUp s = .next t := ⟨rfl, rfl, _, rfl⟩

theorem hyp_WritesNeverRaiseParityError :
    (linked []).seq = .idle ∧ (∃ r d, (Instr.reqApWriteDrw 5).request = some (r, d) ∧ r.rnw = false) ∧
      (∃ t, exec (.reqApWriteDrw 5) (linked []) = .next t) ∧ ∃ t, exec .lineReset (linked []) = .next t :=
  ⟨rfl, ⟨⟨true, false, 3⟩, 5, rfl, rfl⟩, ⟨_, rfl⟩, ⟨_, rfl⟩⟩

theorem hyp_EveryInstructionEnds : (linked []).seq = .idle := rfl

/-- `link_up` is set by LINE_RESET, and cleared by block reset. -/
theorem hyp_LinkUpIsWrittenOnlyByTheRule :
    base.seq = .idle ∧ passes (fun t => t.linkUp != base.linkUp) (exec .lineReset base) = true ∧
      passes (fun t => t.linkUp != true)
        (exec .powerUp { linked [] with env := { base.env with resets := [0] } }) = true := by decide +kernel

/-- `dap_ready` is set by POWER_UP, and cleared by LINE_RESET and by a failing POWER_UP. -/
theorem hyp_DapReadyIsWrittenOnlyByTheRule :
    base.seq = .idle ∧ passes (fun t => t.dapReady != false)
        (exec .powerUp (linked (rd 0x2BA01477#32 false ++ wr ++ wr ++ wr ++ wr))) = true ∧
      passes (fun t => t.dapReady != true) (exec .lineReset (ready bank0 [])) = true ∧
      passes (fun t => t.dapReady != true) (exec .powerUp (ready bank0 (bits [1, 0, 1, 0]))) = true := by decide +kernel

/-- The cache is written by a bank selection, by POWER_UP and by a raw SELECT write, by its command or by its header. -/
theorem hyp_BankCacheIsWrittenOnlyByTheRule :
    base.seq = .idle ∧ passes (fun t => decide (t.cache ≠ bank0)) (exec (.reqDpWriteSelect 0) (ready bank0 wr)) = true ∧
      passes (fun t => decide (t.cache ≠ bank0)) (exec (.selectBank 1 0) (ready bank0 wr)) = true ∧
      passes (fun t => decide (t.cache ≠ bank0)) (exec .powerUp (ready bank0 (bits [1, 0, 1, 0]))) = true ∧
      passes (fun t => decide (t.cache ≠ bank0)) (exec (.wireWrite false 2 0) (ready bank0 wr)) = true := by decide +kernel

theorem hyp_StepKeepsTheResponseForm :
    (base.rsp.valid = true → ResponseShape base.rsp) ∧ passes (fun t => t.rsp.valid) (step (offer 2 0 0 base)) = true :=
  ⟨fun h => by simp [base, State.reset] at h, by decide +kernel⟩

/-- An idle block with a command offered has the invariant, and steps. -/
theorem hyp_StepKeepsTheInvariant_idle : Inv idleReady ∧ ∃ t, step idleReady = .next t := by
  refine ⟨⟨?_, ?_, rfl, fun _ => rfl, fun _ => ⟨rfl, rfl⟩, ?_, ?_, ?_, fun _ => ⟨⟨0xB1#8, 0#32, 0b001#3, .completed⟩, ?_⟩⟩, _, rfl⟩
  · simp [idleReady, offer, ready, linked, base, State.reset]
  · simp [BankAligned, idleReady, offer, ready, bank0]
  · intro h; simp [idleReady, offer, ready, linked, base, State.reset, Seq.inFrame] at h
  · intro _ _ _ h; simp [idleReady, offer, ready, linked, base, State.reset] at h
  · intro _ _ _ h; simp [idleReady, offer, ready, linked, base, State.reset] at h
  · decide

/-- A block before the TAR write of a MEM_WRITE has the invariant, and steps. -/
theorem hyp_StepKeepsTheInvariant_inside :
    let s := inside ⟨7, 4, 5⟩ 1 (.write true 1 4) bank0 []
    Inv s ∧ ∃ t, step s = .next t := by
  refine ⟨⟨?_, ?_, rfl, fun _ => rfl, fun _ => ⟨rfl, rfl⟩, fun _ => ⟨rfl, .write true 1 4, ⟨?_, rfl, rfl, ?_⟩⟩, ?_, ?_,
    fun _ => ⟨⟨0xB1#8, 0#32, 0b001#3, .completed⟩, ?_⟩⟩, _, rfl⟩
  · simp [inside]
  · simp [BankAligned, inside, ready, bank0]
  · decide
  · intro d h; simp at h
  · intro k ph n h hp; simp only [inside, Seq.pos.injEq] at h; rw [← h.2.1] at hp; simp [Phase.pastAck] at hp
  · intro k ph n h hp; simp only [inside, Seq.pos.injEq] at h; rw [← h.2.1] at hp; simp [Phase.inFrame] at hp
  · decide

end Sys2Proof.Tests
end

section
/-!
PROOFS. The values of a frame (spec/00_scope.md R13, R14): parity as the count of ones, the place of a bit in a list, and the
bit cycles of HEADER, ACK and DATA on a quiet channel.
-/
namespace Sys2Proof.Machine

/-! ### Parity -/

/-- The XOR of bits is the number of ones mod 2 (spec/00_scope.md R13). -/
theorem xorAll_eq_count (bs : List Bool) : xorAll bs = decide (bs.count true % 2 = 1) := by
  induction bs with
  | nil => rfl
  | cons b bs ih =>
    rw [xorAll_cons, ih]
    cases b with
    | false => simp
    | true =>
      rw [List.count_cons_self, Bool.true_xor, ← decide_not, decide_eq_decide]
      omega

/-- With their XOR beside them, bits have an even number of ones. -/
theorem count_append_xorAll (bs : List Bool) : (bs ++ [xorAll bs]).count true % 2 = 0 := by
  rw [List.count_append, xorAll_eq_count]
  rcases Nat.mod_two_eq_zero_or_one (bs.count true) with h | h
  · simp [h]
  · simp [h]
    omega

theorem parity32_eq_foldl (v : Word) :
    parity32 v = (List.range 32).foldl (fun b i => b ^^ v.getLsbD i) false := by
  rw [parity32, xorAll, serialise, List.foldl_map]

theorem parity4_eq_xorAll (p r a b : Bool) : parity4 p r a b = xorAll [p, r, a, b] := by
  simp [parity4, xorAll]

/-! ### Bit lists -/

theorem getLsbD_deserialise {w : Nat} (bs : List Bool) {i : Nat} (hi : i < w) :
    (deserialise w bs).getLsbD i = bs.getD i false := by
  induction bs generalizing i with
  | nil => simp [deserialise]
  | cons b bs ih =>
    rw [deserialise, BitVec.getLsbD_or, BitVec.getLsbD_setWidth, BitVec.getLsbD_shiftLeft]
    cases i with
    | zero => simp [hi]
    | succ i => simp [hi, ih (i := i) (by omega)]

/-- Bits set in order into a register of their number make the value R14 gives them, whatever it held. -/
theorem setBits_eq_deserialise {w : Nat} (x : BitVec w) (bs : List Bool) (h : bs.length = w) :
    setBits x 0 bs = deserialise w bs := by
  apply BitVec.eq_of_getLsbD_eq
  intro i hi
  rw [getLsbD_setBits bs x 0 i (by omega), if_pos (by omega), getLsbD_deserialise bs hi, Nat.sub_zero]

theorem getElem?_serialise {w : Nat} (v : BitVec w) {i : Nat} (hi : i < w) :
    (serialise v)[i]? = some (v.getLsbD i) := by
  rw [List.getElem?_eq_getElem (by simpa using hi), getElem_serialise]

/-! ### Bit cycles on a quiet channel -/

section cycles
variable {s : State} (h : s.quiet) (es : List Event) (d : Datapath) (ls : List Bool) (q : Seq) (k n : Nat)
include h

theorem State.within_setModeFirst (out : Bool) : (s.within es d ls q).setModeFirst n out =
    .on (s.within (es ++ if n = 0 then dioMode (s.pins.play es).swdioOe out else []) d ls q) := by
  unfold State.setModeFirst
  split
  · exact State.within_setMode h es d ls q out
  · rw [List.append_nil]

/-- A header bit cycle drives its bit (spec/41_wire_codec.md R128). -/
theorem State.within_tickHeader : (s.within es d ls q).tickHeader k n =
    .on (s.within (es ++ (if n = 0 then dioMode (s.pins.play es).swdioOe true else []) ++ [.drive (d.hdr.getLsbD n)]) d ls
      (nextPos k .header n 8 .trn1)) := by
  rw [State.tickHeader, State.within_setModeFirst h, Flow.andThen_on, State.within_driveBit h, Flow.andThen_on,
    State.within_goto, State.within_dp]

/-- A data bit cycle of a write drives its bit (spec/41_wire_codec.md R134). -/
theorem State.within_tickData_write (hr : d.reading = false) : (s.within es d ls q).tickData k n =
    .on (s.within (es ++ (if n = 0 then dioMode (s.pins.play es).swdioOe true else []) ++ [.drive (d.tx.getLsbD n)]) d ls
      (nextPos k .data n 32 .parity)) := by
  rw [State.tickData, State.within_dp, hr, if_neg Bool.false_ne_true, State.within_setModeFirst h, Flow.andThen_on,
    State.within_driveBit h, Flow.andThen_on, State.within_goto, State.within_dp]

/-- A data bit cycle of a read sets its bit of the receive register (spec/41_wire_codec.md R130). -/
theorem State.within_tickData_read (hr : d.reading = true) (hi : (s.pins.play es).swdioOe = false) (b : Bool) :
    (s.within es d (b :: ls) q).tickData k n =
      .on (s.within (es ++ [.sample b]) { d with rx := setBit d.rx n b } ls (nextPos k .data n 32 .parity)) := by
  rw [State.tickData, State.within_dp, hr, if_pos rfl, State.within_sampleBit h _ _ _ _ _ _ hi, State.within_withDp,
    State.within_goto, State.within_dp]

/-- An ACK bit cycle sets its bit of the ACK, and the third one goes on when that makes OK (spec/41_wire_codec.md R129). -/
theorem State.within_tickAck (hi : (s.pins.play es).swdioOe = false) (b : Bool)
    (hn : n < 2 ∨ (n = 2 ∧ setBit d.ack n b = ackOk)) :
    (s.within es d (b :: ls) q).tickAck k n =
      .on (s.within (es ++ [.sample b]) { d with ack := setBit d.ack n b } ls (Seq.succ d.reading (.pos k .ack n))) := by
  rw [State.tickAck, State.within_sampleBit h _ _ _ _ _ _ hi, State.within_dp, State.within_withDp, Seq.succ]
  rcases hn with hn | ⟨rfl, hok⟩
  · have hlt : n + 1 < 3 := by omega
    rw [if_pos hlt, if_pos hlt, State.within_goto]
  · rw [if_neg (by decide), if_neg (by decide), State.ackTest, State.within_dp, if_pos hok, State.within_goto]
    rfl

end cycles

/-- What a bit cycle that goes on within a frame shows: the registers it leaves and its events on the trace. -/
theorem State.on_within {s : State} {f : Flow} {es : List Event} {d : Datapath} {ls : List Bool} {q : Seq}
    (hf : f = .on (s.within es d ls q)) : ∃ t, f = .on t ∧ t.dp = d ∧ t.obs.trace = s.obs.trace ++ es :=
  ⟨_, hf, s.within_dp es d ls q, (s.within_ran es d ls q).trace⟩

end Sys2Proof.Machine

open Sys2Proof Sys2Proof.Machine

/-- Settles O7: the XOR of a list of bits is its number of ones mod 2, for the 32 bits of a word and the four of a header. -/
theorem parityIsEven : Obligations.ParityIsEven := by
  refine ⟨fun v => ⟨parity32_eq_foldl v, xorAll_eq_count (serialise v), count_append_xorAll (serialise v)⟩,
    fun p r a b => ⟨rfl, ?_⟩⟩
  rw [parity4_eq_xorAll]
  exact count_append_xorAll [p, r, a, b]

/-- Settles O8: the list laws hold bit by bit, and each bit cycle on a quiet channel is one event inside the frame. -/
theorem bitsTravelLeastSignificantFirst : Obligations.BitsTravelLeastSignificantFirst := by
  refine ⟨fun w v => ⟨length_serialise v, fun i hi => getElem?_serialise v hi⟩,
    fun w x v bs hbs => ⟨setBits_eq_deserialise x bs hbs, setBits_serialise v x⟩, ?header, ?dataWrite, ?dataRead, ?ack⟩
  case header =>
    intro s k n hq _ hs
    rw [State.tickFlow, hs]
    exact State.on_within (State.within_tickHeader hq [] s.dp s.env.levels s.seq k n)
  case dataWrite =>
    intro s k n hq _ hs hr
    rw [State.tickFlow, hs]
    exact State.on_within (State.within_tickData_write hq [] s.dp s.env.levels s.seq k n hr)
  case dataRead =>
    intro s k n b ls hq _ hs hr hi hl
    have ht := State.within_tickData_read hq [] s.dp ls s.seq k n hr hi b
    rw [← hl, State.within_nil] at ht
    rw [State.tickFlow, hs]
    exact State.on_within ht
  case ack =>
    intro s k n b ls hq hs hn hi hl
    have ht := State.within_tickAck hq [] s.dp ls s.seq k n hi b hn
    rw [← hl, State.within_nil] at ht
    rw [State.tickFlow, hs]
    exact State.on_within ht
end

section
/-!
PROOFS. What exec does, said once: a request header is State.request, and on an idle block every instruction runs as a command,
which is a line reset, is refused, or runs its list of frames.
-/
namespace Sys2Proof.Machine

/-! ### Request headers -/

/-- exec of a request header is its frame. -/
theorem exec_request {i : Instr} {r : Request} {d : Word} (h : i.request = some (r, d)) (s : State) :
    exec i s = .next (s.request r d) := by
  cases i <;> simp only [Instr.request, Option.some.injEq, Prod.mk.injEq, reduceCtorEq] at h <;>
    obtain ⟨rfl, rfl⟩ := h <;> rfl

/-- The header of a request decodes to the row of that request, with the word if it is a write. -/
theorem decodeFrame_request (r : Request) (d : Word) :
    ∃ i, decodeFrame r.header d = some i ∧ i.request = some (r, if r.rnw then 0 else d) := by
  obtain ⟨p, w, a⟩ := r
  fin_cases a <;> cases p <;> cases w <;> exact ⟨_, rfl, rfl⟩

/-- The command that a row runs as on an idle block: itself, or the raw command that carries a header (log 10). -/
def commandOf (i : Instr) : Instr :=
  match i.request with
  | some (r, d) => r.rawCommand d
  | none => i

theorem commandOf_request (i : Instr) : (commandOf i).request = none := by cases i <;> rfl

/-- A row that runs as something else than a raw codec command is that command. -/
theorem eq_of_commandOf {i j : Instr} (h : commandOf i = j) (hr : ∀ p a, j ≠ .wireRead p a)
    (hw : ∀ p a d, j ≠ .wireWrite p a d) : i = j := by
  unfold commandOf at h
  split at h
  · unfold Request.rawCommand at h
    split at h
    · exact absurd h.symm (hr _ _)
    · exact absurd h.symm (hw _ _ _)
  · exact h

/-- On an idle block a request header is the raw codec command that carries it (log 10). -/
theorem exec_commandOf {s : State} (h : s.seq = .idle) (i : Instr) : exec i s = exec (commandOf i) s := by
  unfold commandOf
  split
  · rename_i r d hr
    obtain ⟨p, w, a⟩ := r
    rw [exec_request hr, State.request, h]
    cases w <;> rfl
  · rfl

/-! ### Commands -/

/-- The state in which a command's first frame is entered: POWER_UP has cleared `dap_ready` and the cache
(spec/42_transaction.md R163). -/
def State.prepare (s : State) (i : Instr) : State :=
  if i = .powerUp then { s.begin i with dapReady := false }.forgetBank else s.begin i

/-- What becomes of a command that starts on an idle block. -/
inductive Started (s : State) (i : Instr) : State → Prop where
  | lineReset : i = .lineReset → Started s i (s.begin i).startLineReset.runCommand
  | refused (st : BitVec 4) : Started s i ((s.begin i).refuse st)
  | ran : i ≠ .lineReset → s.linkUp = true → Started s i ((s.prepare i).runOps (frames s.par i))

theorem Started.requireLink {s : State} {i : Instr} {body : State → State}
    (h : s.linkUp = true → Started s i (body (s.begin i))) : Started s i ((s.begin i).requireLink body) := by
  unfold State.requireLink
  split
  · exact h (by assumption)
  · exact .refused _

theorem Started.requirePower {s : State} {i : Instr} {body : State → State}
    (h : Started s i (body (s.begin i))) : Started s i ((s.begin i).requirePower body) := by
  unfold State.requirePower
  split
  · exact h
  · exact .refused _

theorem Started.of_command {s : State} (h : s.seq = .idle) {i : Instr} {body : State → State}
    (hb : Started s i (body (s.begin i))) :
    ∃ t, (.next (s.command i body) : Result) = .next t ∧ Started s i t :=
  ⟨_, rfl, by rwa [State.command_idle h]⟩

/-- Everything exec of a command can do on an idle block. -/
theorem exec_command {s : State} (h : s.seq = .idle) {i : Instr} (hi : i.request = none) :
    ∃ t, exec i s = .next t ∧ Started s i t := by
  cases i with
  | lineReset => exact Started.of_command h (.lineReset rfl)
  | wireRead p a => exact Started.of_command h (.requireLink (.ran (by simp)))
  | wireWrite p a d => exact Started.of_command h (.requireLink (.ran (by simp)))
  | selectBank ap bank => exact Started.of_command h (.requireLink (.ran (by simp)))
  | powerUp => exact Started.of_command h (.requireLink (.ran (by simp)))
  | memRead a => exact Started.of_command h (.requireLink fun hl => .requirePower (.ran (by simp) hl))
  | memWrite a d => exact Started.of_command h (.requireLink fun hl => .requirePower (.ran (by simp) hl))
  | memWriteHalf a d => exact Started.of_command h (.requireLink fun hl => .requirePower (.ran (by simp) hl))
  | _ => cases hi

/-- Everything exec can do on an idle block. -/
theorem exec_idle {s : State} (h : s.seq = .idle) (i : Instr) :
    ∃ t, exec i s = .next t ∧ Started s (commandOf i) t := by
  rw [exec_commandOf h]
  exact exec_command h (commandOf_request i)

/-! ### The state a command starts in -/

section prepare
variable (s : State) (i : Instr)

@[simp] theorem State.prepare_seq : (s.prepare i).seq = s.seq := by
  unfold State.prepare; split <;> rfl
@[simp] theorem State.prepare_linkUp : (s.prepare i).linkUp = s.linkUp := by
  unfold State.prepare; split <;> rfl
@[simp] theorem State.prepare_pins : (s.prepare i).pins = s.pins := by
  unfold State.prepare; split <;> rfl
@[simp] theorem State.prepare_timer : (s.prepare i).timer = s.timer := by
  unfold State.prepare; split <;> rfl
@[simp] theorem State.prepare_obs : (s.prepare i).obs = s.obs := by
  unfold State.prepare; split <;> rfl
@[simp] theorem State.prepare_busy : (s.prepare i).busy = true := by
  unfold State.prepare; split <;> rfl
@[simp] theorem State.prepare_dapReady : (s.prepare i).dapReady = (!decide (i = .powerUp) && s.dapReady) := by
  unfold State.prepare; split <;> simp [*]
@[simp] theorem State.prepare_cache :
    (s.prepare i).cache = { s.cache with valid := !decide (i = .powerUp) && s.cache.valid } := by
  unfold State.prepare; split <;> simp [*]

theorem State.prepare_current {i : Instr} (h : i.request = none) : (s.prepare i).current = some i := by
  have := State.begin_current h s
  unfold State.prepare; split <;> exact this

theorem State.prepare_frames {i : Instr} (h : i.request = none) :
    (s.prepare i).frames = Sys2Proof.Machine.frames s.par i := by
  have := State.begin_frames h s
  unfold State.prepare; split <;> exact this

end prepare

end Sys2Proof.Machine
end

section
/-!
PROOFS. The invariant of the block is kept by every step: its part that does not speak of the sequencer (Sound) holds between a
command's actions too, and every bit cycle and every way a frame can end (State.tickFlow_to) keep the whole.
-/
namespace Sys2Proof.Machine

/-! ### The cache and the last SELECT write -/

/-- The cache invariant of spec/10_state.md R38. -/
def CacheHeld (s : State) : Prop :=
  s.cache.valid = true →
    ∃ f, lastSelect s = some f ∧ f.ending = .completed ∧ f.ack = ackOk ∧
      f.data = (s.cache.ap.setWidth 32 <<< 24) ||| s.cache.bank.setWidth 32

theorem CacheHeld.congr {s u : State} (h : CacheHeld s) (ap : u.cache.ap = s.cache.ap) (bank : u.cache.bank = s.cache.bank)
    (valid : u.cache.valid = true → s.cache.valid = true) (frames : u.obs.frames = s.obs.frames) : CacheHeld u := by
  intro hv
  unfold lastSelect
  rw [ap, bank, frames]
  exact h (valid hv)

theorem header_eq_selectHeader_iff (r : Request) : r.header = selectRequest.header ↔ r = selectRequest := by
  obtain ⟨p, w, a⟩ := r
  revert p w a
  decide

/-- A frame that is no SELECT write leaves the last one as it was. -/
theorem lastSelect_logFrame_other {s : State} {r : Request} (h : s.dp.hdr = r.header) (hr : r ≠ selectRequest)
    (e : FrameEnd) : lastSelect (s.logFrame e) = lastSelect s := by
  have : (s.dp.record e).isSelect = false := by
    simpa [FrameRecord.isSelect, Datapath.record, h, header_eq_selectHeader_iff] using hr
  simp [lastSelect, State.logFrame, List.filter_append, this]

/-- A SELECT write that ends is the last one. -/
theorem lastSelect_logFrame_select {s : State} (h : s.dp.hdr = selectRequest.header) (e : FrameEnd) :
    lastSelect (s.logFrame e) = some ⟨s.dp.hdr, s.dp.tx, s.dp.ack, e⟩ := by
  have hr : s.dp.record e = ⟨s.dp.hdr, s.dp.tx, s.dp.ack, e⟩ := by
    simp [Datapath.record, Datapath.reading, h, selectRequest]
  have hs : (FrameRecord.mk s.dp.hdr s.dp.tx s.dp.ack e).isSelect = true := by simp [FrameRecord.isSelect, h]
  simp [lastSelect, State.logFrame, List.filter_append, hr, hs]

theorem CacheHeld.logFrame {s : State} (h : CacheHeld s) {r : Request} (hr : s.dp.hdr = r.header)
    (hv : s.cache.valid = true → r ≠ selectRequest) (e : FrameEnd) : CacheHeld (s.logFrame e) := by
  intro hc
  rw [lastSelect_logFrame_other hr (hv hc)]
  exact h hc

/-! ### The part of the invariant that does not speak of the sequencer -/

/-- The invariant of the block but for `busy` and the frame in progress. -/
structure Sound (s : State) : Prop where
  bank : BankAligned s
  timer : s.timer = 0
  ready : s.dapReady = true → s.linkUp = true
  clock : s.linkUp = true → s.pins.swclkOe = true ∧ s.pins.swclkO = true
  cache : CacheHeld s

theorem Inv.sound {s : State} (h : Inv s) : Sound s := ⟨h.bank, h.timer, h.ready, h.clock, h.cache⟩

/-- On an idle block that is all of the invariant. -/
theorem Sound.inv {s : State} (h : Sound s) (hq : s.seq = .idle) (hb : s.busy = false) : Inv s where
  busy := by simp [hq, hb]
  bank := h.bank
  timer := h.timer
  ready := h.ready
  clock := h.clock
  frame := by simp [hq, Seq.inFrame]
  acked := by simp [hq]
  lineReset := by simp [hq]
  cache := h.cache

/-- Sound reads only these fields, and holds on with `dap_ready` or the cache given up. -/
theorem Sound.congr {s u : State} (h : Sound s) (linkUp : u.linkUp = s.linkUp)
    (dapReady : u.dapReady = true → s.dapReady = true) (ap : u.cache.ap = s.cache.ap) (bank : u.cache.bank = s.cache.bank)
    (valid : u.cache.valid = true → s.cache.valid = true) (pins : u.pins = s.pins) (timer : u.timer = s.timer)
    (frames : u.obs.frames = s.obs.frames) : Sound u where
  bank := by rw [BankAligned, bank]; exact h.bank
  timer := timer.trans h.timer
  ready hd := linkUp.trans (h.ready (dapReady hd))
  clock hl := by rw [pins]; exact h.clock (linkUp.symm.trans hl)
  cache := h.cache.congr ap bank valid frames

theorem Sound.logFrame {s : State} (h : Sound s) {r : Request} (hr : s.dp.hdr = r.header)
    (hv : s.cache.valid = true → r ≠ selectRequest) (e : FrameEnd) : Sound (s.logFrame e) :=
  ⟨h.bank, h.timer, h.ready, h.clock, h.cache.logFrame hr hv e⟩

theorem Sound.moved {s u : State} (h : Sound s) (hm : Moved s u) (hc : Clocked u) : Sound u where
  bank := by rw [BankAligned, hm.cache]; exact h.bank
  timer := hc.2
  ready := by rw [hm.dapReady, hm.linkUp]; exact h.ready
  clock hl := ⟨hm.clockOe (h.clock (hm.linkUp.symm.trans hl)).1, hc.1⟩
  cache := h.cache.congr (by rw [hm.cache]) (by rw [hm.cache]) (by rw [hm.cache]; exact id) hm.frames

/-- Block reset, wherever it comes. -/
theorem State.blockReset_inv (s : State) : Inv s.blockReset :=
  Sound.inv ⟨BitVec.zero_and, rfl, nofun, nofun, nofun⟩ rfl rfl

theorem Sound.respond {s : State} (h : Sound s) (st : BitVec 4) (ack : BitVec 3) (d : Word) :
    Inv (s.respond st ack d) :=
  Sound.inv (h.congr rfl id rfl rfl id rfl rfl rfl) rfl rfl

theorem Inv.scrub {s : State} (h : Inv s) (hq : s.seq = .idle) : Inv s.scrub :=
  Sound.inv (h.sound.congr rfl id rfl rfl id rfl rfl rfl) hq
    (by simpa [hq] using h.busy)

/-- A command that completes on a link that is up. -/
theorem Sound.complete {s : State} (h : Sound s) (hl : s.linkUp = true) (ack : BitVec 3) : Inv (s.complete ack) := by
  refine Sound.inv ⟨?bank, ?timer, fun _ => ?ready, ?clock, ?cache⟩ rfl rfl
  case bank => rw [BankAligned, State.complete_cache]; exact h.bank
  case timer => simpa using h.timer
  case ready => simpa using hl
  case clock => simpa using h.clock
  case cache => exact h.cache.congr (by simp) (by simp) (by simp) (by simp)

/-! ### The frame in progress -/

theorem Moved.toAlong {s u : State} (h : Moved s u) (hs : s.seq ≠ .idle) : Along s u :=
  ⟨h.linkUp, h.dapReady, h.cache, h.busy, h.rsp, h.header, h.word, h.cmd, h.result, h.par, h.offers, h.frames,
    by rw [h.seq], by rw [h.seq], by rwa [h.seq]⟩

theorem Along.frameOp {s v : State} (h : Along s v) (hs : s.seq ≠ .idle) : v.frameOp = s.frameOp := by
  have hstep := h.step
  have hrun := h.running
  unfold State.frameOp
  rw [State.frames_eq h.cmd h.par]
  cases hq : s.seq with
  | idle => exact absurd hq hs
  | pos k ph n =>
    cases hv : v.seq with
    | idle => exact absurd hv hrun
    | pos k' ph' n' =>
      rw [hq, hv] at hstep
      cases (show k' = k from hstep)
      rfl

theorem FrameLoaded.along {s v : State} {op : FrameOp} (h : FrameLoaded s op) (ha : Along s v) (hs : s.seq ≠ .idle) :
    FrameLoaded v op where
  listed := (ha.frameOp hs).trans h.listed
  header := ha.header.trans h.header
  word := ha.word.trans h.word
  rawSelect d hd := by rw [ha.cache]; exact h.rawSelect d hd

theorem FrameLoaded.reading {s : State} {op : FrameOp} (h : FrameLoaded s op) : s.dp.reading = op.request.rnw := by
  rw [Datapath.reading, h.header, header_rnw]

/-- With the cache valid, a frame that is no bank selection is no SELECT write. -/
theorem FrameLoaded.request_ne {s : State} {op : FrameOp} (h : FrameLoaded s op) (hs : op.selects = false)
    (hv : s.cache.valid = true) : op.request ≠ selectRequest := by
  cases op with
  | read p a keep => simp [FrameOp.request, selectRequest]
  | select ap bank => cases hs
  | write p a d =>
    intro e
    simp only [FrameOp.request, selectRequest, Request.mk.injEq, true_and] at e
    obtain ⟨rfl, rfl⟩ := e
    rw [h.rawSelect d rfl] at hv
    cases hv

theorem State.forgetBankIfSelecting_cache (s : State) :
    s.forgetBankIfSelecting.cache = { s.cache with valid := !s.selecting && s.cache.valid } := by
  unfold State.forgetBankIfSelecting
  cases s.selecting <;> rfl

/-- A frame that failed: the cache is given up if it was a bank selection's (spec/20_memory.md R81). -/
theorem CacheHeld.frameFailed {s : State} {op : FrameOp} (h : CacheHeld s) (hf : FrameLoaded s op) (e : FrameEnd) :
    CacheHeld (s.forgetBankIfSelecting.logFrame e) := by
  have hc := s.forgetBankIfSelecting_cache
  refine CacheHeld.logFrame (h.congr ?_ ?_ ?_ (by simp)) (r := op.request) (by simpa using hf.header) ?_ e <;>
    simp only [hc, State.selecting_of hf.listed, Bool.and_eq_true, Bool.not_eq_true']
  · exact And.right
  · exact fun hv => hf.request_ne hv.1 hv.2

theorem Sound.ackFault {s : State} {op : FrameOp} (h : Sound s) (hf : FrameLoaded s op) : Inv s.raiseAckFault := by
  refine Inv.scrub (Sound.respond ⟨?_, ?_, ?_, ?_, h.cache.frameFailed hf .ackFault⟩ _ _ _) rfl
  · rw [BankAligned, State.logFrame_cache, State.forgetBankIfSelecting_cache]; exact h.bank
  · simpa using h.timer
  · simpa using h.ready
  · simpa using h.clock

theorem Sound.parityError {s : State} {op : FrameOp} (h : Sound s) (hf : FrameLoaded s op) (hr : s.dp.reading = true) :
    Inv s.raiseParityError := by
  refine Inv.scrub (Sound.respond (h.logFrame hf.header (fun _ e => ?_) _) _ _ _) rfl
  rw [hf.reading, e] at hr
  cases hr

/-- A channel failure takes the link down (spec/60_exceptions.md R205). -/
theorem State.raiseTransportError_inv {s : State} (hb : BankAligned s) (hc : CacheHeld s)
    (hf : s.seq.inFrame = true → ∃ op, FrameLoaded s op) : Inv s.raiseTransportError := by
  refine Sound.inv ⟨?bank, rfl, nofun, nofun, ?cache⟩ rfl rfl
  case bank =>
    simp only [BankAligned, State.raiseTransportError]
    split <;> exact (congrArg (fun c : Cache => c.bank &&& 0x0F#8) (State.forgetBankIfSelecting_cache _)).trans hb
  case cache =>
    simp only [State.raiseTransportError]
    split
    · rename_i hin
      obtain ⟨op, hf⟩ := hf hin
      refine (hc.frameFailed hf .linkFailed).congr ?_ ?_ ?_ ?_ <;>
        simp [State.forgetBankIfSelecting_cache, show (s.logFrame .linkFailed).selecting = s.selecting from rfl]
    · refine hc.congr ?_ ?_ ?_ ?_ <;> simp [State.forgetBankIfSelecting_cache]

/-! ### The next frame of a command -/

section cacheAtStart
variable (c : Cache) (op : FrameOp)

@[simp] theorem FrameOp.cacheAtStart_ap : (op.cacheAtStart c).ap = c.ap := by
  unfold FrameOp.cacheAtStart; repeat' split
  all_goals rfl
@[simp] theorem FrameOp.cacheAtStart_bank : (op.cacheAtStart c).bank = c.bank := by
  unfold FrameOp.cacheAtStart; repeat' split
  all_goals rfl
theorem FrameOp.valid_of_cacheAtStart (h : (op.cacheAtStart c).valid = true) : c.valid = true := by
  cases op with
  | read => exact h
  | select => exact h
  | write =>
    rw [FrameOp.cacheAtStart] at h
    split at h
    · cases h
    · exact h

end cacheAtStart

/-- A frame that starts on a link that is up. -/
theorem Sound.startFrame {s : State} {k : Nat} {op : FrameOp} (h : Sound s) (hl : s.linkUp = true) (hb : s.busy = true)
    (hk : s.frames[k]? = some op) : Inv (s.startFrame k op.request op.data) := by
  have hc : (s.startFrame k op.request op.data).cache = op.cacheAtStart s.cache := by rw [State.startFrame_eq hk]; rfl
  have hs : Sound (s.startFrame k op.request op.data) :=
    h.congr (by simp) (by simp) (by simp [hc]) (by simp [hc])
      (by rw [hc]; exact FrameOp.valid_of_cacheAtStart s.cache op) (by simp) (by simp) (by simp)
  refine ⟨by simp [hb], hs.bank, hs.timer, hs.ready, hs.clock, fun _ => ⟨by simp [hl], op, ?_, by simp, by simp, ?_⟩,
    ?_, ?_, hs.cache⟩
  · rw [State.frameOp_of_seq (State.startFrame_seq s k _ _), State.frames_eq (s := s) (by simp) (by simp), hk]
  · rintro d rfl
    rw [hc]
    rfl
  all_goals
    intro k' ph n hq hph
    rw [State.startFrame_seq] at hq
    cases hq
    cases hph

/-- The remaining entries of a command entered on a link that is up. -/
theorem Sound.enter {s : State} (h : Sound s) (hl : s.linkUp = true) (hb : s.busy = true) (k : Nat) (ack : BitVec 3) :
    Inv (State.enter (s.frames.drop k) k ack s) := by
  obtain ⟨j, op, hj, -, he⟩ | ⟨-, he⟩ := State.enter_cases (s.frames.drop k) k ack s <;> rw [he]
  · exact h.startFrame hl hb (by rwa [List.getElem?_drop] at hj)
  · exact h.complete hl ack

theorem bankBits_aligned (bank : Byte) : bankBits bank &&& 0x0F#8 = 0#8 := by
  rw [bankBits, BitVec.and_assoc]
  exact BitVec.and_zero

/-- What a frame with ACK OK leaves: after a bank selection the cache holds what was written (spec/20_memory.md R80). -/
theorem Sound.frameCompleted {s : State} {op : FrameOp} (h : Sound s) (hf : FrameLoaded s op) (ha : s.dp.ack = ackOk) :
    Sound (s.frameEffect.logFrame .completed) := by
  rw [State.frameEffect_of hf.listed]
  cases op with
  | select ap bank =>
    exact ⟨bankBits_aligned bank, h.timer, h.ready, h.clock,
      fun _ => ⟨_, lastSelect_logFrame_select hf.header _, rfl, ha, hf.word⟩⟩
  | write p a d => exact h.logFrame hf.header (hf.request_ne rfl) _
  | read p a keep =>
    have hs : Sound (s.opEffect (.read p a keep)) := by
      cases keep <;> exact h.congr rfl id rfl rfl id rfl rfl rfl
    exact hs.logFrame (r := FrameOp.request (.read p a keep)) (by simpa using hf.header)
      (by simp [FrameOp.request, selectRequest]) _

theorem Sound.endFrame {s : State} {op : FrameOp} (h : Sound s) (hf : FrameLoaded s op) (ha : s.dp.ack = ackOk)
    (hl : s.linkUp = true) (hb : s.busy = true) (k : Nat) : Inv (s.endFrame k) := by
  have hs : Sound (s.frameEffect.logFrame .completed).scrub :=
    (h.frameCompleted hf ha).congr rfl id rfl rfl id rfl rfl rfl
  have := hs.enter (by simpa using hl) (by simpa using hb) (k + 1) ackOk
  rwa [State.frames_eq (s := s) (by simp) (by simp)] at this

/-! ### Bit cycles -/

theorem nextPos_phase {k n len k' n' : Nat} {ph ph' ph'' : Phase} (h : nextPos k ph n len ph' = .pos k' ph'' n') :
    ph'' = ph ∨ ph'' = ph' := by
  unfold nextPos at h
  split at h <;> cases h
  · exact .inl rfl
  · exact .inr rfl

/-- A position past the ACK test comes after one, or after the last ACK bit. -/
theorem Seq.succ_pastAck {q : Seq} {reading : Bool} {k n : Nat} {ph : Phase} (h : q.succ reading = .pos k ph n)
    (hp : ph.pastAck = true) : ∃ k' ph' n', q = .pos k' ph' n' ∧ (ph'.pastAck = true ∨ ph' = .ack ∧ ¬n' + 1 < 3) := by
  cases q with
  | idle => cases h
  | pos k' ph' n' =>
    refine ⟨k', ph', n', rfl, ?_⟩
    cases ph' with
    | ack =>
      refine .inr ⟨rfl, fun hn => ?_⟩
      rw [Seq.succ, if_pos hn] at h
      cases h
      cases hp
    | trn2 => exact .inl rfl
    | data => exact .inl rfl
    | parity => exact .inl rfl
    | idle => exact .inl rfl
    | header => obtain rfl | rfl := nextPos_phase h <;> cases hp
    | ones => obtain rfl | rfl := nextPos_phase h <;> cases hp
    | magic => obtain rfl | rfl := nextPos_phase h <;> cases hp
    | trn1 => cases h; cases hp
    | idleSync => cases h; cases hp

/-- A bit cycle that does not end the frame. -/
theorem Inv.bitCycle {s u : State} (h : Inv s) (hs : s.seq ≠ .idle) (hm : Moved s u) (hc : Clocked u)
    (ho : ∀ k, s.seq = .pos k .ones 0 → u.pins.swclkOe = true) (ha : AckKept s u) :
    Inv (u.goto (s.seq.succ s.dp.reading)) := by
  have hal := hm.along hs s.dp.reading
  have hu := h.sound.moved hm hc
  refine ⟨?busy, hu.bank, hu.timer, hu.ready, hu.clock, ?frame, ?acked, ?lineReset, hu.cache⟩
  case busy =>
    have hb : u.busy = true := hm.busy.trans (h.busy.mpr hs)
    exact ⟨fun _ => hal.running, fun _ => hb⟩
  case frame =>
    intro hin
    obtain ⟨hl, op, hf⟩ := h.frame (hal.inFrame.symm.trans hin)
    exact ⟨hm.linkUp.trans hl, op, hf.along hal hs⟩
  case acked =>
    intro k ph n hq hp
    obtain ⟨k', ph', n', hq', hp' | ⟨rfl, hn⟩⟩ := Seq.succ_pastAck hq hp
    · have hk := ha k' ph' n' hq'
      rw [if_neg (by rintro rfl; cases hp')] at hk
      exact hk.trans (h.acked k' ph' n' hq' hp')
    · have hk := ha k' .ack n' hq'
      rw [if_pos rfl] at hk
      exact hk.resolve_left hn
  case lineReset =>
    intro k ph n hq hp _
    refine ⟨?_, hc.1⟩
    have hin : s.seq.inFrame = false := by
      rw [← hal.inFrame, show (u.goto (s.seq.succ s.dp.reading)).seq = _ from hq]
      exact hp
    cases hs' : s.seq with
    | idle => exact absurd hs' hs
    | pos k' ph' n' =>
      rw [hs'] at hin
      by_cases hf : ph' ≠ .ones ∨ n' ≠ 0
      · exact hm.clockOe (h.lineReset k' ph' n' hs' hin hf).1
      · obtain ⟨rfl, rfl⟩ : ph' = .ones ∧ n' = 0 := by simpa using hf
        exact ho k' hs'

/-- A frame in progress, as seen from a state later in the same bit cycle. -/
theorem Inv.loaded {s u : State} (h : Inv s) (hm : Moved s u) (hin : s.seq.inFrame = true) :
    u.linkUp = true ∧ u.busy = true ∧ ∃ op, FrameLoaded u op := by
  have hs : s.seq ≠ .idle := by
    intro e
    rw [e] at hin
    cases hin
  obtain ⟨hl, op, hf⟩ := h.frame hin
  exact ⟨hm.linkUp.trans hl, hm.busy.trans (h.busy.mpr hs), op, hf.along (hm.toAlong hs) hs⟩

/-- Every way a bit cycle can end the frame or the line reset. -/
theorem Inv.tickEnd {s t : State} (h : Inv s) (ht : TickEnd s t) : Inv t := by
  cases ht with
  | idle => exact h
  | blockReset u => exact u.blockReset_inv
  | linkFailure u hm =>
    refine State.raiseTransportError_inv ?_ ?_ fun hin => ?_
    · rw [BankAligned, hm.cache]
      exact h.bank
    · exact h.sound.cache.congr (by rw [hm.cache]) (by rw [hm.cache]) (by rw [hm.cache]; exact id) hm.frames
    · exact (h.loaded hm (by rwa [hm.seq] at hin)).2.2
  | ackFault u k n hm hc hq =>
    obtain ⟨-, -, op, hf⟩ := h.loaded hm (by rw [hq]; rfl)
    exact (h.sound.moved hm hc).ackFault hf
  | parityError u k n hm hc hq hr =>
    obtain ⟨-, -, op, hf⟩ := h.loaded hm (by rw [hq]; rfl)
    exact (h.sound.moved hm hc).parityError hf (hm.reading.trans hr)
  | frame u k n hm hc hq ha =>
    obtain ⟨hl, hb, op, hf⟩ := h.loaded hm (by rw [hq]; rfl)
    exact (h.sound.moved hm hc).endFrame hf (ha.trans (h.acked k .idle n hq rfl)) hl hb k
  | lineReset u k n hm hc hq =>
    have hoe := hm.clockOe (h.lineReset k .idleSync n hq rfl (.inl nofun)).1
    have hu := h.sound.moved hm hc
    exact Sound.respond (s := { u with linkUp := true })
      ⟨hu.bank, hu.timer, fun _ => rfl, fun _ => ⟨hoe, hc.1⟩, hu.cache⟩ _ _ _

theorem Inv.tickTo {s : State} {f : Flow} (h : Inv s) (ht : TickTo s f) : Inv f.state := by
  cases ht with
  | off t he => exact h.tickEnd he
  | on u hm hc ho ha hl =>
    refine h.bitCycle ?_ hm hc ho ha
    intro e
    rw [e] at hl
    exact absurd hl (Nat.not_lt_zero _)

theorem Inv.tick_on {s t : State} (h : Inv s) (ht : s.tickFlow = .on t) : Inv t :=
  h.tickTo (f := .on t) (ht ▸ s.tickFlow_to)

theorem Inv.tick_off {s t : State} (h : Inv s) (ht : s.tickFlow = .off t) : Inv t :=
  h.tickTo (f := .off t) (ht ▸ s.tickFlow_to)

theorem Inv.runFrame {s : State} (h : Inv s) (fuel : Nat) : Inv (State.runFrame fuel s) :=
  State.runFrame_keeps (fun _ _ => Inv.tick_on) (fun _ _ => Inv.tick_off) fuel s h

theorem Inv.runCommand {s : State} (h : Inv s) : Inv s.runCommand :=
  State.runFrames_keeps (fun _ _ => Inv.tick_on) (fun _ _ => Inv.tick_off) maxFrames s h

/-! ### Commands and steps -/

theorem Sound.begin {s : State} (h : Sound s) (i : Instr) : Sound (s.begin i) :=
  h.congr rfl id rfl rfl id rfl rfl rfl

/-- A line reset stands before its first bit: the pins are as they were. -/
theorem Sound.startLineReset {s : State} (h : Sound s) (hb : s.busy = true) : Inv s.startLineReset := by
  have hs : Sound s.startLineReset := h.congr rfl nofun rfl rfl id rfl rfl rfl
  refine ⟨by simpa using hb, hs.bank, hs.timer, hs.ready, hs.clock, nofun, ?_, ?_, hs.cache⟩
  · intro k ph n hq hp
    cases hq
    cases hp
  · intro k ph n hq _ hn
    cases hq
    simp at hn

/-- A command on an idle block. -/
theorem Sound.started {s t : State} {i : Instr} (h : Sound s) (hi : i.request = none) (ht : Started s i t) : Inv t := by
  cases ht with
  | lineReset => exact ((h.begin i).startLineReset rfl).runCommand
  | refused st => exact (h.begin i).respond st _ _
  | ran _ hl =>
    have hp : Sound (s.prepare i) := by
      refine h.congr ?_ ?_ ?_ ?_ ?_ ?_ ?_ ?_ <;> simp
    have := hp.enter (by simpa using hl) (by simp) 0 0#3
    rw [State.prepare_frames s hi] at this
    exact this.runCommand

theorem Sound.exec {s t : State} {i : Instr} (h : Sound s) (hq : s.seq = .idle) (ht : exec i s = .next t) : Inv t := by
  obtain ⟨u, hu, hst⟩ := exec_idle hq i
  cases hu.symm.trans ht
  exact h.started (commandOf_request i) hst

/-- A frame the sequencer stands before, run as the instruction in the header register. -/
theorem Inv.execFrame {s t : State} {i : Instr} (h : Inv s) (hi : s.frameHere = some i) (ht : exec i s = .next t) :
    Inv t := by
  unfold State.frameHere at hi
  split at hi
  · cases hi
  · rename_i k ph n hq
    split at hi
    · rename_i hph
      obtain ⟨rfl, rfl⟩ := hph
      obtain ⟨hl, hb, op, hf⟩ := h.loaded (Moved.refl s) (by rw [hq]; rfl)
      have hreq : i.request = some (op.request, op.data) := by
        obtain ⟨j, hj, hr⟩ := decodeFrame_request op.request op.data
        rw [hf.header, hf.word, hj] at hi
        cases hi
        rw [hr]
        cases op <;> rfl
      rw [exec_request hreq, State.request_at hq] at ht
      cases ht
      have hk : s.frames[k]? = some op := (State.frameOp_of_seq hq).symm.trans hf.listed
      exact (h.sound.startFrame hl hb hk).runFrame _
    · cases hi

theorem Inv.stepInside {s t : State} (h : Inv s) (ht : s.stepInside = .next t) : Inv t := by
  unfold State.stepInside at ht
  split at ht
  · exact h.execFrame (by assumption) ht
  · cases ht
    exact h.runFrame _

theorem Sound.dispatch {s t : State} (h : Sound s) (hq : s.seq = .idle) (ht : s.dispatch = .next t) : Inv t := by
  unfold State.dispatch at ht
  split at ht
  · exact h.exec hq ht
  · cases ht
    exact h.respond _ _ _

/-- An instant: block reset lands, or the action behind it goes on. -/
theorem State.instant_inv {s t : State} {k : State → Host.Outcome State Fault Refusal}
    (hk : k (s.pass 1) = .next t → Inv t) (ht : s.instant k = .next t) : Inv t := by
  unfold State.instant at ht
  split at ht
  · cases ht
    exact s.blockReset_inv
  · exact hk ht

theorem Inv.stepIdle {s t : State} (h : Inv s) (hq : s.seq = .idle) (ht : s.stepIdle = .next t) : Inv t := by
  have hb : s.busy = false := by simpa [hq] using h.busy
  rw [State.stepIdle, State.cmdReady, hb, Bool.not_false, if_pos rfl] at ht
  split at ht
  · cases ht
    exact h
  · rename_i c rest _
    have hs : Sound ((s.accept c rest).pass 1) := h.sound.congr rfl id rfl rfl id rfl rfl rfl
    exact State.instant_inv (hs.dispatch hq) ht

theorem Inv.pass {s : State} (h : Inv s) (n : Nat) : Inv (s.pass n) where
  busy := h.busy
  bank := h.bank
  timer := h.timer
  ready := h.ready
  clock := h.clock
  frame hin := (h.frame hin).imp id fun ⟨op, hf⟩ => ⟨op, hf.listed, hf.header, hf.word, hf.rawSelect⟩
  acked := h.acked
  lineReset := h.lineReset
  cache := h.cache

end Sys2Proof.Machine

open Sys2Proof Sys2Proof.Machine

/-- Settles O59: an instant passes, then an idle block waits or runs a command, and a block inside one runs its frame. -/
theorem stepKeepsTheInvariant : Obligations.StepKeepsTheInvariant := by
  intro s t h ht
  refine State.instant_inv (fun ht => ?_) ht
  have hp := h.pass 1
  split at ht
  · exact hp.stepIdle (by assumption) ht
  · exact hp.stepInside ht

/-- Settles O60: after reset nothing runs, the link is down and the cache invalid. -/
theorem resetHasTheInvariant : Obligations.ResetHasTheInvariant :=
  Sound.inv ⟨BitVec.zero_and, rfl, nofun, nofun, nofun⟩ rfl rfl
end

section
/-!
PROOFS. Every command ends, and how: each frame ends (State.runFrame_end) with the command or before a frame of a later
entry, so five frames are enough; with what each end writes in the flags `link_up` and `dap_ready` (spec/10_state.md R35,
R36).
-/
namespace Sys2Proof.Machine

/-- What the end of a command in progress in `s` leaves in the response and the flags. -/
inductive EndsBy (s t : State) : Prop where
  | blockReset : t.rsp = State.reset.rsp → t.linkUp = false → t.dapReady = false → EndsBy s t
  | linkFailure : t.rsp = ⟨true, statusTransportError, 0#3, 0#32⟩ → t.linkUp = false → t.dapReady = false → EndsBy s t
  | raised : t.rsp.valid = true → t.linkUp = s.linkUp → t.dapReady = s.dapReady → EndsBy s t
  | completed : t.rsp.valid = true → t.rsp.status = statusOk → t.linkUp = s.linkUp →
      t.dapReady = (decide (s.current = some .powerUp) || s.dapReady) → EndsBy s t
  | lineReset : s.seq ≠ .idle → s.seq.inFrame = false → t.rsp = ⟨true, statusOk, 0#3, 0#32⟩ → t.linkUp = true →
      t.dapReady = s.dapReady → EndsBy s t

/-- The command in progress in `s` has ended in `t`. -/
structure CommandEnd (s t : State) : Prop where
  seq : t.seq = .idle
  busy : t.busy = false
  endsBy : EndsBy s t

/-- From `s`, in a frame, the command has come to stand in `t` before a frame of a later entry. -/
structure NextFrame (s t : State) : Prop where
  linkUp : t.linkUp = s.linkUp
  dapReady : t.dapReady = s.dapReady
  cmd : t.cmd = s.cmd
  par : t.par = s.par
  later : s.seq.stepOf < t.seq.stepOf
  listed : t.seq.stepOf < s.frames.length
  inFrame : t.seq.inFrame = true

theorem EndsBy.congr {s u t : State} (h : EndsBy u t) (linkUp : u.linkUp = s.linkUp) (dapReady : u.dapReady = s.dapReady)
    (cmd : u.cmd = s.cmd) (lineReset : u.seq ≠ .idle → u.seq.inFrame = false → s.seq ≠ .idle ∧ s.seq.inFrame = false) :
    EndsBy s t := by
  cases h with
  | blockReset hr hl hd => exact .blockReset hr hl hd
  | linkFailure hr hl hd => exact .linkFailure hr hl hd
  | raised hv hl hd => exact .raised hv (hl.trans linkUp) (hd.trans dapReady)
  | completed hv hs hl hd =>
    have hc : u.current = s.current := by rw [State.current, cmd]; rfl
    exact .completed hv hs (hl.trans linkUp) (by rw [hd, hc, dapReady])
  | lineReset hq hin hr hl hd =>
    obtain ⟨hq', hin'⟩ := lineReset hq hin
    exact .lineReset hq' hin' hr hl (hd.trans dapReady)

theorem CommandEnd.of_nextFrame {s u t : State} (h : NextFrame s u) (g : CommandEnd u t) : CommandEnd s t :=
  ⟨g.seq, g.busy, g.endsBy.congr h.linkUp h.dapReady h.cmd fun _ hin => by rw [h.inFrame] at hin; cases hin⟩

theorem State.complete_end (s : State) (ack : BitVec 3) : CommandEnd s (s.complete ack) :=
  ⟨rfl, rfl, .completed (by simp) (by simp) (by simp) (by simp)⟩

/-- Going on behind entry `k`: the command's end, or a later frame. -/
theorem State.enter_commandEnd {s u : State} {k n : Nat} {ph : Phase} (hq : s.seq = .pos k ph n)
    (linkUp : u.linkUp = s.linkUp) (dapReady : u.dapReady = s.dapReady) (cmd : u.cmd = s.cmd) (par : u.par = s.par) :
    CommandEnd s (State.enter (s.frames.drop (k + 1)) (k + 1) ackOk u) ∨
      NextFrame s (State.enter (s.frames.drop (k + 1)) (k + 1) ackOk u) := by
  obtain ⟨j, op, hj, -, he⟩ | ⟨-, he⟩ := State.enter_cases (s.frames.drop (k + 1)) (k + 1) ackOk u <;> rw [he]
  · rw [List.getElem?_drop] at hj
    have hlt := (List.getElem?_eq_some_iff.mp hj).1
    refine .inr ⟨by simpa using linkUp, by simpa using dapReady, by simpa using cmd, by simpa using par, ?_, ?_, ?_⟩ <;>
      simp only [State.startFrame_seq, hq, Seq.stepOf]
    · omega
    · exact hlt
    · rfl
  · have hc : u.current = s.current := by rw [State.current, cmd]; rfl
    exact .inl ⟨rfl, rfl, .completed (by simp) (by simp) (by simpa using linkUp) (by simp [hc, dapReady])⟩

/-- Seen from the start of the frame or of the line reset, its end is the same. -/
theorem Along.commandEnd {s v t : State} (ha : Along s v) (hs : s.seq ≠ .idle) (h : CommandEnd v t ∨ NextFrame v t) :
    CommandEnd s t ∨ NextFrame s t := by
  obtain hend | hnext := h
  · exact .inl ⟨hend.seq, hend.busy,
      hend.endsBy.congr ha.linkUp ha.dapReady ha.cmd fun _ hin => ⟨hs, ha.inFrame.symm.trans hin⟩⟩
  · exact .inr ⟨hnext.linkUp.trans ha.linkUp, hnext.dapReady.trans ha.dapReady, hnext.cmd.trans ha.cmd,
      hnext.par.trans ha.par, ha.step ▸ hnext.later, State.frames_eq ha.cmd ha.par ▸ hnext.listed, hnext.inFrame⟩

/-- Every end of a frame or of a line reset is the command's end or comes before a later frame. -/
theorem TickEnd.commandEnd {s t : State} (h : TickEnd s t) (hs : s.seq ≠ .idle) : CommandEnd s t ∨ NextFrame s t := by
  cases h with
  | idle hq => exact absurd hq hs
  | blockReset u => exact .inl ⟨rfl, rfl, .blockReset rfl rfl rfl⟩
  | linkFailure u => exact .inl ⟨rfl, rfl, .linkFailure rfl rfl rfl⟩
  | ackFault u k n hm =>
    exact .inl ⟨rfl, rfl, .raised rfl (by simpa [State.raiseAckFault] using hm.linkUp)
      (by simpa [State.raiseAckFault] using hm.dapReady)⟩
  | parityError u k n hm => exact .inl ⟨rfl, rfl, .raised rfl hm.linkUp hm.dapReady⟩
  | frame u k n hm hc hq =>
    exact (hm.toAlong hs).commandEnd hs
      (State.enter_commandEnd (hm.seq.trans hq) (by simp) (by simp) (by simp) (by simp))
  | lineReset u k n hm hc hq =>
    exact .inl ⟨rfl, rfl, .lineReset hs (by rw [hq]; rfl) rfl rfl hm.dapReady⟩

/-- A frame runs to the command's end or to a later frame. -/
theorem State.runFrame_commandEnd {s : State} (hs : s.seq ≠ .idle) :
    CommandEnd s (State.runFrame frameFuel s) ∨ NextFrame s (State.runFrame frameFuel s) := by
  obtain ⟨v, ha, ht⟩ := State.runFrame_end hs
  exact ha.commandEnd hs (ht.commandEnd ha.running)

/-- Frames up to the end of the command, one for each entry left. -/
theorem State.runFrames_end (n : Nat) : ∀ s : State, s.seq ≠ .idle → 0 < n → s.frames.length ≤ s.seq.stepOf + n →
    CommandEnd s (State.runFrames n s) := by
  induction n with
  | zero => exact fun s _ h => absurd h (Nat.lt_irrefl 0)
  | succ n ih =>
    intro s hs _ hlen
    obtain ⟨k, ph, m, hq⟩ : ∃ k ph m, s.seq = .pos k ph m := by
      cases hq : s.seq with
      | idle => exact absurd hq hs
      | pos k ph m => exact ⟨k, ph, m, rfl⟩
    rw [State.runFrames_pos hq]
    obtain hend | hnext := State.runFrame_commandEnd hs
    · rwa [State.runFrames_idle hend.seq]
    · have hlater := hnext.later
      have hlisted := hnext.listed
      refine CommandEnd.of_nextFrame hnext (ih _ ?_ (by omega) ?_)
      · intro hidle
        have hin := hnext.inFrame
        rw [hidle] at hin
        cases hin
      · rw [State.frames_eq hnext.cmd hnext.par]
        omega

/-! ### Commands on an idle block -/

theorem length_frames_le (p : Params) (i : Instr) : (frames p i).length ≤ maxFrames := by
  cases i <;> exact Nat.le_of_ble_eq_true rfl

/-- The frames of a command, from its first to its end. -/
theorem State.runOps_end (s : State) (h : s.frames.length ≤ maxFrames) : CommandEnd s (s.runOps s.frames) := by
  rw [State.runOps, State.runCommand]
  obtain ⟨j, op, hj, -, he⟩ | ⟨-, he⟩ := State.enter_cases s.frames 0 0#3 s <;> rw [he]
  · have hf : (s.startFrame (0 + j) op.request op.data).frames = s.frames := State.frames_eq (by simp) (by simp)
    have hend := State.runFrames_end maxFrames (s.startFrame (0 + j) op.request op.data) (by simp) (by decide)
      (by rw [hf]; omega)
    refine ⟨hend.seq, hend.busy, hend.endsBy.congr (by simp) (by simp) (by simp) fun _ hin => ?_⟩
    rw [State.startFrame_seq] at hin
    cases hin
  · rw [State.runFrames_idle rfl]
    exact s.complete_end 0#3

/-- A command that starts on an idle block is refused, or runs to its end. -/
theorem Started.ends {s t : State} {i : Instr} (h : Started s i t) (hi : i.request = none) :
    (∃ st, t = (s.begin i).refuse st) ∨ (i = .lineReset ∧ CommandEnd (s.begin i).startLineReset t) ∨
      CommandEnd (s.prepare i) t := by
  cases h with
  | lineReset hl =>
    refine .inr (.inl ⟨hl, State.runFrames_end maxFrames _ nofun (by decide) ?_⟩)
    have hf : (s.begin i).startLineReset.frames = frames s.par i := State.begin_frames hi s
    rw [hf, hl]
    exact Nat.zero_le _
  | refused st => exact .inl ⟨st, rfl⟩
  | ran _ _ =>
    have hend := (s.prepare i).runOps_end (by rw [State.prepare_frames s hi]; exact length_frames_le s.par i)
    rw [State.prepare_frames s hi] at hend
    exact .inr (.inr hend)

/-! ### The flags -/

theorem CommandEnd.rsp {s t : State} (h : CommandEnd s t) : t.rsp.valid = true ∨ t.rsp = State.reset.rsp := by
  cases h.endsBy with
  | blockReset hr => exact .inr hr
  | linkFailure hr => exact .inl (by rw [hr])
  | raised hv => exact .inl hv
  | completed hv => exact .inl hv
  | lineReset _ _ hr => exact .inl (by rw [hr])

/-- What a command's end can write in `link_up`. -/
theorem CommandEnd.linkUp_written {s t : State} (h : CommandEnd s t) (hne : t.linkUp ≠ s.linkUp) :
    (t.linkUp = true ∧ s.seq ≠ .idle ∧ t.rsp.status = statusOk) ∨
      (t.linkUp = false ∧ (t.rsp.status = statusTransportError ∨ t.rsp.valid = false)) := by
  cases h.endsBy with
  | blockReset hr hl => exact .inr ⟨hl, .inr (by rw [hr]; rfl)⟩
  | linkFailure hr hl => exact .inr ⟨hl, .inl (by rw [hr])⟩
  | raised _ hl => exact absurd hl hne
  | completed _ _ hl => exact absurd hl hne
  | lineReset hs _ hr hl => exact .inl ⟨hl, hs, by rw [hr]⟩

/-- What a command's end can write in `dap_ready`. -/
theorem CommandEnd.dapReady_written {s t : State} (h : CommandEnd s t) (hne : t.dapReady ≠ s.dapReady) :
    (t.dapReady = true ∧ s.current = some .powerUp ∧ t.rsp.valid = true ∧ t.rsp.status = statusOk) ∨
      (t.dapReady = false ∧ (t.rsp.status = statusTransportError ∨ t.rsp.valid = false)) := by
  cases h.endsBy with
  | blockReset hr _ hd => exact .inr ⟨hd, .inr (by rw [hr]; rfl)⟩
  | linkFailure hr _ hd => exact .inr ⟨hd, .inl (by rw [hr])⟩
  | raised _ _ hd => exact absurd hd hne
  | lineReset _ _ _ _ hd => exact absurd hd hne
  | completed hv hs _ hd =>
    by_cases hc : s.current = some .powerUp
    · exact .inl ⟨by simpa [hc] using hd, hc, hv, hs⟩
    · exact absurd (by simpa [hc] using hd) hne

end Sys2Proof.Machine

open Sys2Proof Sys2Proof.Machine

/-- Settles O54: every instruction runs as a command, and every command is refused or ends within five frames. -/
theorem everyInstructionEnds : Obligations.EveryInstructionEnds := by
  intro s i hq
  obtain ⟨t, ht, hst⟩ := exec_idle hq i
  refine ⟨t, ht, ?_⟩
  obtain ⟨st, rfl⟩ | ⟨-, hend⟩ | hend := hst.ends (commandOf_request i)
  · exact ⟨rfl, rfl, .inl rfl⟩
  · exact ⟨hend.seq, hend.busy, hend.rsp⟩
  · exact ⟨hend.seq, hend.busy, hend.rsp⟩

/-- Settles O55: of the ends of a command only a line reset's sets `link_up`, and no frame comes to that end. -/
theorem linkUpIsWrittenOnlyByTheRule : Obligations.LinkUpIsWrittenOnlyByTheRule := by
  intro s t i hq ht hne
  obtain ⟨u, hu, hst⟩ := exec_idle hq i
  cases hu.symm.trans ht
  obtain ⟨st, rfl⟩ | ⟨hi, hend⟩ | hend := hst.ends (commandOf_request i)
  · exact absurd rfl hne
  · obtain ⟨hl, -, hs⟩ | hclear := hend.linkUp_written hne
    · exact .inl ⟨hl, eq_of_commandOf hi nofun nofun, hs⟩
    · exact .inr hclear
  · obtain ⟨-, hidle, -⟩ | hclear := hend.linkUp_written (by rwa [State.prepare_linkUp])
    · exact absurd ((s.prepare_seq _).trans hq) hidle
    · exact .inr hclear

/-- Settles O56: POWER_UP and LINE_RESET clear `dap_ready` as they start, and of the ends of a command only POWER_UP's sets it. -/
theorem dapReadyIsWrittenOnlyByTheRule : Obligations.DapReadyIsWrittenOnlyByTheRule := by
  intro s t i hq ht hne
  obtain ⟨u, hu, hst⟩ := exec_idle hq i
  cases hu.symm.trans ht
  obtain ⟨st, rfl⟩ | ⟨hi, hend⟩ | hend := hst.ends (commandOf_request i)
  · exact absurd rfl hne
  · cases hd : t.dapReady with
    | false => exact .inr ⟨rfl, .inr (.inl (eq_of_commandOf hi nofun nofun))⟩
    | true =>
      obtain ⟨-, hc, -⟩ | ⟨hclear, -⟩ := hend.dapReady_written (by rw [hd]; exact nofun)
      · have hb := State.begin_current (commandOf_request i) s
        cases (hb.symm.trans hc).symm.trans (congrArg some hi)
      · cases hd.symm.trans hclear
  · have hcur := s.prepare_current (commandOf_request i)
    by_cases hp : commandOf i = .powerUp
    · cases hd : t.dapReady with
      | false => exact .inr ⟨rfl, .inl (eq_of_commandOf hp nofun nofun)⟩
      | true =>
        obtain ⟨-, -, hv, hs⟩ | ⟨hclear, -⟩ := hend.dapReady_written (by simp [hd, hp])
        · exact .inl ⟨rfl, eq_of_commandOf hp nofun nofun, hv, hs⟩
        · cases hd.symm.trans hclear
    · obtain ⟨-, hc, -⟩ | ⟨hclear, hr⟩ := hend.dapReady_written (by simpa [hp] using hne)
      · exact absurd (Option.some.inj (hcur.symm.trans hc)) hp
      · exact .inr ⟨hclear, .inr (.inr hr)⟩
end

section
/-!
PROOFS. What a step does when no block reset lands in it: the instants that pass, and the instruction it runs
(spec/10_state.md R33, R42). And SetMode on a quiet channel.
-/
namespace Sys2Proof.Machine

/-! ### Schedules -/

theorem elapse_elapse (m n : Nat) (rs : List Nat) : elapse n (elapse m rs) = elapse (m + n) rs := by
  cases rs with
  | nil => rfl
  | cons r rest => simp [elapse, Nat.sub_sub]

/-- A reset that does not land in `n` instants is not due before the last of them. -/
theorem due_elapse_of_lands {m n : Nat} {rs : List Nat} (h : lands n rs = none) (hm : m < n) :
    due (elapse m rs) = false := by
  cases rs with
  | nil => rfl
  | cons r rest =>
    simp only [lands, ite_eq_right_iff, reduceCtorEq, imp_false, Nat.not_lt] at h
    obtain ⟨x, hx⟩ : ∃ x, r - m = x + 1 := ⟨r - m - 1, by omega⟩
    simp [elapse, hx, due]

@[simp] theorem elapse_zero (rs : List Nat) : elapse 0 rs = rs := by
  cases rs <;> rfl

theorem State.instant_passes {s : State} (h : due s.env.resets = false)
    (k : State → Host.Outcome State Fault Refusal) : s.instant k = k (s.pass 1) := by
  rw [State.instant, h, if_neg Bool.false_ne_true]

/-! ### Steps -/

/-- An idle block accepts the command on the port; an instant stands before its first action (spec/10_state.md R33). -/
theorem step_accepts {s : State} {c : Command} {rest : List Command} (hr : due s.env.resets = false)
    (hq : s.seq = .idle) (hb : s.busy = false) (ho : s.env.offers = c :: rest) :
    step s = ((s.pass 1).accept c rest).instant State.dispatch := by
  rw [step, State.instant_passes hr]
  simp only [State.pass_seq, hq, State.stepIdle, State.cmdReady, State.pass_busy, hb, Bool.not_false, if_true,
    show (s.pass 1).env.offers = c :: rest from ho]

/-- The accepted command runs what its word decodes to. -/
theorem step_of_offer {s : State} {c : Command} {rest : List Command} (hr : lands 2 s.env.resets = none)
    (hq : s.seq = .idle) (hb : s.busy = false) (ho : s.env.offers = c :: rest) :
    step s = State.dispatch
      { s with
        cmd := c, busy := true, rsp := { s.rsp with valid := false },
        env := { s.env with offers := rest, resets := elapse 2 s.env.resets } } := by
  have h0 : due s.env.resets = false := by simpa using due_elapse_of_lands hr (m := 0) (by decide)
  have h1 : due ((s.pass 1).accept c rest).env.resets = false := due_elapse_of_lands hr (m := 1) (by decide)
  rw [step_accepts h0 hq hb ho, State.instant_passes h1]
  simp only [State.pass, State.accept, elapse_elapse, Nat.reduceAdd]

/-- Before a frame a step runs the request in the header register (spec/10_state.md R42). -/
theorem step_of_frame {s : State} {k : Nat} {i : Instr} (hr : due s.env.resets = false) (hq : s.seq = .pos k .header 0)
    (hi : decodeFrame s.dp.hdr s.dp.tx = some i) : step s = exec i (s.pass 1) := by
  have hf : (s.pass 1).frameHere = some i := by
    simpa [State.frameHere, hq] using hi
  rw [step, State.instant_passes hr]
  simp only [State.pass_seq, hq, State.stepInside, hf]

/-- Block reset, when due, is all a step does (spec/70_reset_and_hazards.md R230). -/
theorem step_of_due {s : State} (h : due s.env.resets = true) : step s = .next s.blockReset := by
  rw [step, State.instant, h, if_pos rfl]

/-! ### SetMode -/

/-- A SetMode that does not change the mode is no event (spec/41_wire_codec.md R120). -/
theorem State.setMode_same {s : State} {pin : Pin} {out : Bool} (h : s.pins.isOut pin = out) :
    s.setMode pin out = .on s := by
  rw [State.setMode, if_pos h]

theorem Pins.setMode_isOut {p : Pins} {pin : Pin} {out : Bool} (h : p.isOut pin = out) : p.setMode pin out = p := by
  subst h
  cases pin <;> rfl

/-- A SetMode that changes the mode, on a quiet channel. -/
theorem State.setMode_change {s : State} (hq : s.quiet) {pin : Pin} {out : Bool} (h : s.pins.isOut pin ≠ out) :
    s.setMode pin out = .on ({ s with pins := s.pins.setMode pin out }.emit (.setMode pin (modeOf out))) := by
  rw [State.setMode, if_neg h, State.event_quiet hq]

end Sys2Proof.Machine

open Sys2Proof Sys2Proof.Machine

/-- Settles O15: by whether the mode changes. -/
theorem setModeIsAnEventOnChange : Obligations.SetModeIsAnEventOnChange := by
  intro s pin out hq
  by_cases h : s.pins.isOut pin = out
  · exact ⟨s, State.setMode_same h, (Pins.setMode_isOut h).symm, rfl, rfl, by rw [if_pos h, List.append_nil]⟩
  · exact ⟨_, State.setMode_change hq h, rfl, rfl, rfl, by rw [if_neg h]; rfl⟩

/-- Settles O17: both instants before the command pass, and dispatch runs what the latches decode to. -/
theorem stepRunsTheOfferedCommand : Obligations.StepRunsTheOfferedCommand := by
  intro s c rest i hr hq hb ho hi
  rw [step_of_offer hr hq hb ho, State.dispatch, State.current, hi]

/-- Settles O18. -/
theorem stepRunsTheFrameItStandsBefore : Obligations.StepRunsTheFrameItStandsBefore :=
  fun _ _ _ hr hq hi => step_of_frame hr hq hi

/-- Settles O20: a step at which block reset is due is State.blockReset. -/
theorem blockResetGivesTheResetValues : Obligations.BlockResetGivesTheResetValues := by
  refine ⟨⟨rfl, rfl, rfl, rfl, rfl, rfl, rfl, rfl⟩, fun s h => ?_⟩
  exact ⟨s.blockReset, step_of_due h, ⟨rfl, rfl, rfl, rfl, rfl, rfl, rfl, rfl⟩, rfl, rfl, rfl, rfl, rfl⟩
end

section
/-!
PROOFS. Block reset abandons a command (spec/70_reset_and_hazards.md R230, R231): before any wire event, inside a bit cycle,
and between acceptance and a command's first action.
-/
namespace Sys2Proof.Machine

/-! ### What block reset leaves -/

/-- Block reset in a state that shows, beyond `s`, the pins as `ws` for the time `n`, and no event. -/
theorem State.blockReset_abandoned {s v : State} {ws : List Pins} {n : Nat} (par : v.par = s.par)
    (offers : v.env.offers = s.env.offers) (trace : v.obs.trace = s.obs.trace) (frames : v.obs.frames = s.obs.frames)
    (wave : v.obs.wave = s.obs.wave ++ ws) (elapsed : v.obs.elapsed = s.obs.elapsed + n) :
    Abandoned s v.blockReset ws n :=
  ⟨rfl, rfl, rfl, rfl, rfl, rfl, rfl, rfl, par, offers, trace, frames, wave, elapsed⟩

/-! ### Before a wire event -/

section due
variable {s : State} (h : due s.env.resets = true)
include h

theorem State.event_due (k : State → Flow) : s.event k = .off s.blockReset := by
  rw [State.event, h, if_pos rfl]

theorem State.driveBit_due (b : Bool) : s.driveBit b = .off s.blockReset := State.event_due h _

theorem State.sampleBit_due (k : Bool → State → Flow) : s.sampleBit k = .off s.blockReset := State.event_due h _

theorem State.setMode_due {pin : Pin} {out : Bool} (hm : s.pins.isOut pin ≠ out) :
    s.setMode pin out = .off s.blockReset := by
  rw [State.setMode, if_neg hm, State.event_due h]

/-- A mode change and what follows it: where the mode stays, reset lands before the next event. -/
theorem State.setMode_andThen_due (pin : Pin) (out : Bool) {k : State → Flow} (hk : k s = .off s.blockReset) :
    (s.setMode pin out).andThen k = .off s.blockReset := by
  by_cases hm : s.pins.isOut pin = out
  · rw [State.setMode_same hm, Flow.andThen_on, hk]
  · rw [State.setMode_due h hm, Flow.andThen_off]

theorem State.setModeFirst_andThen_due (n : Nat) (out : Bool) {k : State → Flow} (hk : k s = .off s.blockReset) :
    (s.setModeFirst n out).andThen k = .off s.blockReset := by
  unfold State.setModeFirst
  split
  · exact State.setMode_andThen_due h _ _ hk
  · exact hk

theorem State.driveBit_andThen_due (b : Bool) (k : State → Flow) : (s.driveBit b).andThen k = .off s.blockReset := by
  rw [State.driveBit_due h, Flow.andThen_off]

/-- The first wire event of every bit cycle. -/
theorem State.tickFlow_due (hs : s.seq ≠ .idle) : s.tickFlow = .off s.blockReset := by
  cases hq : s.seq with
  | idle => exact absurd hq hs
  | pos k ph n =>
    rw [State.tickFlow, hq]
    cases ph with
    | header => exact State.setModeFirst_andThen_due h _ _ (State.driveBit_andThen_due h _ _)
    | trn1 => exact State.setMode_andThen_due h _ _ (State.sampleBit_due h _)
    | ack => exact State.sampleBit_due h _
    | trn2 => exact State.sampleBit_due h _
    | data =>
      simp only [State.tickData]
      split
      · exact State.sampleBit_due h _
      · exact State.setModeFirst_andThen_due h _ _ (State.driveBit_andThen_due h _ _)
    | parity =>
      simp only [State.tickParity]
      split
      · exact State.sampleBit_due h _
      · exact State.driveBit_andThen_due h _ _
    | idle =>
      simp only [State.tickIdle]
      split
      · exact State.sampleBit_due h _
      · exact State.driveBit_andThen_due h _ _
    | ones =>
      have hk {j : State → Flow} :
          ((s.setModeFirst n true).andThen fun s => (s.driveBit true).andThen j) = .off s.blockReset :=
        State.setModeFirst_andThen_due h _ _ (State.driveBit_andThen_due h _ _)
      simp only [State.tickOnes, Flow.andThen_assoc]
      split
      · exact State.setMode_andThen_due h _ _ hk
      · exact hk
    | magic => exact State.driveBit_andThen_due h _ _
    | idleSync => exact State.driveBit_andThen_due h _ _

end due

/-! ### Inside a bit cycle -/

section cut
variable {s : State} {n : Nat} {rest : List Nat} (h : s.env.resets = n :: rest)
include h

/-- Block reset lands at count `n` of a half period. -/
theorem State.waitHalf_cut (hn : n < halfPeriod s.par) :
    s.waitHalf = .off (s.startTimer.runTimer n).blockReset := by
  simp [State.waitHalf, h, lands, hn]

/-- Block reset lands after a half period. -/
theorem State.waitHalf_passes (hn : ¬n < halfPeriod s.par) : s.waitHalf = .on s.halfPassed := by
  simp [State.waitHalf, h, lands, hn]

theorem State.halfPassed_resets : s.halfPassed.env.resets = (n - halfPeriod s.par) :: rest := by
  simp [State.halfPassed, State.pass, State.runTimer, State.startTimer, h, elapse]

end cut

/-- `u` is `s` but for the level of SWCLK and what a sample uses up. -/
structure SameCycle (s u : State) : Prop where
  par : u.par = s.par
  offers : u.env.offers = s.env.offers
  resets : u.env.resets = s.env.resets
  obs : u.obs = s.obs

/-- Two half periods, with block reset at count `n` of them: it lands in the low half, or in the high one. -/
theorem State.twoHalves_cut {s : State} {n : Nat} {rest : List Nat} (h : s.env.resets = n :: rest)
    (hn : n < 2 * halfPeriod s.par) {f : State → State} (hf : SameCycle s.halfPassed (f s.halfPassed))
    (k : State → State → Flow) :
    ∃ u, (s.waitHalf.andThen fun v => (f v).waitHalf.andThen (k v)) = .off u ∧
      Abandoned s u (if n < halfPeriod s.par then [s.pins] else [s.pins, (f s.halfPassed).pins]) n := by
  by_cases hlow : n < halfPeriod s.par
  · refine ⟨_, by rw [State.waitHalf_cut h hlow, Flow.andThen_off], ?_⟩
    rw [if_pos hlow]
    exact State.blockReset_abandoned rfl rfl rfl rfl rfl rfl
  · have hr : (f s.halfPassed).env.resets = (n - halfPeriod s.par) :: rest :=
      hf.resets.trans (State.halfPassed_resets h)
    have hp : (f s.halfPassed).par = s.par := hf.par
    have hhigh : n - halfPeriod s.par < halfPeriod (f s.halfPassed).par := by rw [hp]; omega
    refine ⟨_, by rw [State.waitHalf_passes h hlow, Flow.andThen_on, State.waitHalf_cut hr hhigh, Flow.andThen_off], ?_⟩
    rw [if_neg hlow]
    refine State.blockReset_abandoned hp hf.offers ?_ ?_ ?_ ?_ <;>
      simp only [State.runTimer, State.startTimer, hf.obs]
    · rfl
    · rfl
    · exact List.append_assoc _ [s.pins] _
    · show s.obs.elapsed + halfPeriod s.par + (n - halfPeriod s.par) = _
      omega

/-- What was abandoned since a state that shows the same was abandoned since this one. -/
theorem Abandoned.of_eq {s v u : State} {ws : List Pins} {n : Nat} (h : Abandoned v u ws n)
    (par : v.par = s.par) (offers : v.env.offers = s.env.offers) (obs : v.obs = s.obs) : Abandoned s u ws n where
  pins := h.pins
  linkUp := h.linkUp
  dapReady := h.dapReady
  cache := h.cache
  busy := h.busy
  rsp := h.rsp
  seq := h.seq
  timer := h.timer
  par := h.par.trans par
  offers := h.offers.trans offers
  trace := obs ▸ h.trace
  frames := obs ▸ h.frames
  wave := obs ▸ h.wave
  elapsed := obs ▸ h.elapsed

/-- A wire event before which neither block reset nor a channel failure comes. -/
theorem State.event_happens {s : State} {n : Nat} {rest : List Nat} (h : s.env.resets = (n + 1) :: rest)
    (hl : s.linkFailsNow = false) (k : State → Flow) : s.event k = k s.passEvent := by
  rw [State.event, h, hl]
  rfl

theorem State.passEvent_resets {s : State} {n : Nat} {rest : List Nat} (h : s.env.resets = (n + 1) :: rest) :
    s.passEvent.env.resets = n :: rest := by
  simp [State.passEvent, h, elapse]

/-- DriveBit cut short (spec/41_wire_codec.md R121). -/
theorem State.driveBit_cut {s : State} {n : Nat} {rest : List Nat} (hl : s.linkFailsNow = false)
    (h : s.env.resets = (n + 1) :: rest) (hn : n < 2 * halfPeriod s.par) (b : Bool) :
    ∃ u, s.driveBit b = .off u ∧
      Abandoned s u
        (if n < halfPeriod s.par then [⟨s.pins.swclkOe, false, s.pins.swdioOe, b⟩]
          else [⟨s.pins.swclkOe, false, s.pins.swdioOe, b⟩, ⟨s.pins.swclkOe, true, s.pins.swdioOe, b⟩]) n := by
  obtain ⟨u, hu, ha⟩ := State.twoHalves_cut (s := s.passEvent.driveLow b) (State.passEvent_resets h) hn
    (f := fun v => v.clockTo true) ⟨rfl, rfl, rfl, rfl⟩ fun _ v => .on (v.emit (.drive b))
  refine ⟨u, ?_, ha.of_eq rfl rfl rfl⟩
  rw [State.driveBit, State.event_happens h hl]
  exact hu

/-- SampleBit cut short (spec/41_wire_codec.md R122). -/
theorem State.sampleBit_cut {s : State} {n : Nat} {rest : List Nat} (hl : s.linkFailsNow = false)
    (h : s.env.resets = (n + 1) :: rest) (hn : n < 2 * halfPeriod s.par) (k : Bool → State → Flow) :
    ∃ u, s.sampleBit k = .off u ∧
      Abandoned s u
        (if n < halfPeriod s.par then [⟨s.pins.swclkOe, false, s.pins.swdioOe, s.pins.swdioO⟩]
          else [⟨s.pins.swclkOe, false, s.pins.swdioOe, s.pins.swdioO⟩,
            ⟨s.pins.swclkOe, true, s.pins.swdioOe, s.pins.swdioO⟩]) n := by
  have hm (v : State) : SameCycle v v.takeLevel := by
    refine ⟨by simp, ?_, ?_, by simp⟩ <;> simp only [State.takeLevel, State.useLevel] <;> repeat' split
    all_goals rfl
  obtain ⟨u, hu, ha⟩ := State.twoHalves_cut (s := s.passEvent.clockTo false) (State.passEvent_resets h) hn
    (hm _) fun v w => k v.level (w.emit (.sample v.level))
  refine ⟨u, ?_, ?_⟩
  · rw [State.sampleBit, State.event_happens h hl]
    exact hu
  · rw [State.takeLevel_pins] at ha
    exact ha.of_eq rfl rfl rfl

end Sys2Proof.Machine

open Sys2Proof Sys2Proof.Machine

/-- Settles O21: before an event State.event gives way to block reset; inside a bit cycle it lands in one of the two halves; after
acceptance it lands at the second instant of the step. -/
theorem blockResetAbandonsTheCommand : Obligations.BlockResetAbandonsTheCommand := by
  refine ⟨fun s h => ⟨s.blockReset, ?event⟩, ?drive, ?sample, ?accepted⟩
  case event =>
    refine ⟨State.blockReset_abandoned rfl rfl rfl rfl (List.append_nil _).symm rfl, State.event_due h,
      State.driveBit_due h, State.sampleBit_due h, fun _ _ => State.setMode_due h, fun hs => ?_⟩
    exact ⟨State.tickFlow_due h hs, State.runFrame_off (State.tickFlow_due h hs) 95⟩
  case drive =>
    intro s b n rest ho hl h hn
    simpa [ho] using State.driveBit_cut hl h hn b
  case sample =>
    intro s k n rest ho hl h hn
    simpa [ho] using State.sampleBit_cut hl h hn k
  case accepted =>
    intro s c offers rest hq hb ho h
    have h0 : due s.env.resets = false := by rw [h]; rfl
    have h1 : due ((s.pass 1).accept c offers).env.resets = true := by simp [State.accept, State.pass, h, elapse, due]
    refine ⟨((s.pass 1).accept c offers).blockReset, ?_,
      State.blockReset_abandoned rfl rfl rfl rfl (List.append_nil _).symm rfl⟩
    rw [step_accepts h0 hq hb ho, State.instant, h1, if_pos rfl]
end

section
/-!
PROOFS. A frame of a command in progress, on a quiet channel: the frame is clocked (State.run_readFrame, State.run_writeFrame),
and the command goes on to its next entry or completes.
-/
namespace Sys2Proof.Machine

/-- No command lists a raw DP SELECT write behind its first entry. -/
theorem rawSelect_not_mem_frames_tail (p : Params) (i : Instr) (d : Word) :
    FrameOp.write false 2 d ∉ (frames p i).tail := by
  cases i <;> simp [frames, framesWireRead, framesWireWrite, framesSelectBank, framesPowerUp, framesMemRead,
    framesMemWrite, framesMemWriteHalf]

/-- Behind a command's first entry, a frame starts with the cache as it is. -/
theorem State.cacheAtStart_next {s : State} {k : Nat} {op : FrameOp} (h : s.frames[k + 1]? = some op) (c : Cache) :
    op.cacheAtStart c = c := by
  cases op with
  | read => rfl
  | select => rfl
  | write p a d =>
    rw [FrameOp.cacheAtStart, if_neg]
    rintro ⟨rfl, rfl⟩
    unfold State.frames at h
    split at h
    · exact rawSelect_not_mem_frames_tail _ _ d (List.mem_of_getElem? (List.getElem?_tail.trans h))
    · cases h

/-- `v` stands behind `u`: only the position, the transient registers, `dap_ready`, `busy` and the response differ. -/
structure Behind (u v : State) : Prop where
  pins : v.pins = u.pins
  timer : v.timer = u.timer
  obs : v.obs = u.obs
  par : v.par = u.par
  env : v.env = u.env
  cmd : v.cmd = u.cmd
  linkUp : v.linkUp = u.linkUp
  cache : v.cache = u.cache
  result : v.result = u.result

/-- Going on behind a command's first entry adds nothing to what happened. -/
theorem State.enter_behind (u : State) (k : Nat) (ack : BitVec 3) :
    Behind u (State.enter (u.frames.drop (k + 1)) (k + 1) ack u) := by
  obtain ⟨j, op, hj, -, he⟩ | ⟨-, he⟩ := State.enter_cases (u.frames.drop (k + 1)) (k + 1) ack u <;> rw [he]
  · rw [List.getElem?_drop] at hj
    refine ⟨by simp, by simp, by simp, by simp, by simp, by simp, by simp, ?_, by simp⟩
    rw [State.startFrame_eq hj]
    exact State.cacheAtStart_next (by rwa [show k + 1 + j = k + j + 1 by omega] at hj) u.cache
  · exact ⟨by simp, by simp, by simp, by simp, by simp, by simp, by simp, by simp, by simp⟩

/-- Where the frame at entry `k` leaves the command: complete, or before the frame of its next entry. -/
theorem State.enter_next {u : State} {k : Nat} {ack : BitVec 3} :
    let v := State.enter (u.frames.drop (k + 1)) (k + 1) ack u
    (u.frames[k + 1]? = none → v = u.complete ack) ∧
      ∀ op, u.frames[k + 1]? = some op → op.hits u.cache = false → v = u.startFrame (k + 1) op.request op.data :=
  ⟨fun h => State.enter_end (List.getElem?_eq_none_iff.mp h) ack 0, fun _ h hm => State.enter_load h hm ack⟩

theorem Behind.exchanged {s u v : State} {es : List Event} {ls : List Bool} {fs : List FrameRecord} (h : Did s u es ls fs)
    (g : Behind u v) : Exchanged s v es ls fs ∧ SameOutside s v where
  left := ⟨h.ran.of_eq rfl rfl rfl rfl rfl rfl g.pins (by rw [g.obs]) (by rw [g.obs]) (by rw [g.obs]) g.timer,
    by rw [g.env, h.levels], by rw [g.obs, h.records]⟩
  right := ⟨g.par.trans h.outside.par, by rw [g.env, h.outside.offers], by rw [g.env, h.outside.resets],
    by rw [g.env, h.outside.linkFaults]⟩

/-- A frame at entry `k` that completed, in `u`, and the command after it: what stays, and both ways it can go on. -/
theorem State.frame_continues {s u : State} {k : Nat} {es : List Event} {ls : List Bool} {fs : List FrameRecord}
    (h : Did s u es ls fs) (hb : u.busy = s.busy) (hr : u.rsp = s.rsp) :
    let v := State.enter (u.frames.drop (k + 1)) (k + 1) ackOk u
    Exchanged s v es ls fs ∧ SameOutside s v ∧ v.cmd = s.cmd ∧ v.linkUp = s.linkUp ∧ v.cache = u.cache ∧
      v.result = u.result ∧
      (s.frames[k + 1]? = none → v.rsp = ⟨true, statusOk, ackOk, v.result⟩ ∧ v.busy = false ∧ v.seq = .idle ∧
        v.dapReady = (decide (s.current = some .powerUp) || s.dapReady)) ∧
      (∀ op, s.frames[k + 1]? = some op → op.hits u.cache = false →
        v.seq = .pos (k + 1) .header 0 ∧ v.dp.hdr = op.request.header ∧ v.dp.tx = op.data ∧ v.busy = s.busy ∧
          v.rsp = s.rsp ∧ v.dapReady = s.dapReady) := by
  have hv := u.enter_behind k ackOk
  obtain ⟨hend, hnext⟩ := State.enter_next (u := u) (k := k) (ack := ackOk)
  have hc : u.current = s.current := by rw [State.current, h.cmd]; rfl
  refine ⟨(hv.exchanged h).1, (hv.exchanged h).2, hv.cmd.trans h.cmd, hv.linkUp.trans h.linkUp, hv.cache, hv.result,
    fun hk => ?_, fun op hk hm => ?_⟩
  · rw [hend (by rwa [h.frames])]
    exact ⟨by simp, rfl, rfl, by rw [State.complete_dapReady, hc, h.dapReady]⟩
  · rw [hnext op (by rwa [h.frames]) hm]
    exact ⟨by simp, by simp, by simp, by simpa using hb, by simpa using hr, by simpa using h.dapReady⟩

end Sys2Proof.Machine

open Sys2Proof Sys2Proof.Machine

/-- Settles O48: the read frame runs as State.run_readFrame says, and State.frame_continues says what is next. -/
theorem readFrameOfACommand : Obligations.ReadFrameOfACommand := by
  intro s i k apndp a keep t i0 i1 d rest hq hs hk hi hl
  obtain ⟨u, hrun, hdid, hres, hcache, hb, hr⟩ := State.run_readFrame hq hk hl
  obtain ⟨hex, hout, hcmd, hlink, hc, hv, hend, hnext⟩ := State.frame_continues (k := k) hdid hb hr
  rw [hcache] at hc hnext
  refine ⟨_, ?_, hex, hout, hcmd, hlink, hc, hv.trans hres, hend, hnext⟩
  rw [exec_request hi, State.request_at hs, hrun]

/-- Settles O49: the same with State.run_writeFrame. -/
theorem writeFrameOfACommand : Obligations.WriteFrameOfACommand := by
  intro s i k op t0 t1 rest hq hs hk hw hi hl
  obtain ⟨u, hrun, hdid, hres, hcache, hb, hr⟩ := State.run_writeFrame hq hk hw hl
  obtain ⟨hex, hout, hcmd, hlink, hc, hv, hend, hnext⟩ := State.frame_continues (k := k) hdid hb hr
  rw [← hc] at hnext
  refine ⟨_, ?_, hex, hout, hcmd, hlink, hc.trans hcache, hv.trans hres, hend, hnext⟩
  rw [exec_request hi, State.request_at hs, hrun]
end

section
/-!
PROOFS. The status word of the host's view (spec/10_state.md R41).
-/
namespace Sys2Proof.Machine

theorem getLsbD_bitWord (b : Bool) (i : Nat) : (bitWord b).getLsbD i = (decide (i = 0) && b) := by
  cases i <;> cases b <;> simp [bitWord]

/-- Bit `i` of `status_word`, each register at its place. -/
theorem State.getLsbD_statusWord (s : State) (i : Nat) (hi : i < 32) : s.statusWord.getLsbD i =
    if i < 4 then s.rsp.status.getLsbD i
    else if i < 7 then s.rsp.ack.getLsbD (i - 4)
    else if i = 7 then s.rsp.valid
    else if i = 8 then s.busy
    else if i = 9 then s.linkUp
    else if i = 10 then s.dapReady
    else if i = 11 then s.cache.valid
    else if i < 16 then false
    else if i < 24 then s.cache.ap.getLsbD (i - 16)
    else s.cache.bank.getLsbD (i - 24) := by
  simp only [State.statusWord, BitVec.getLsbD_or, BitVec.getLsbD_shiftLeft, BitVec.getLsbD_setWidth, getLsbD_bitWord]
  interval_cases i <;> simp

end Sys2Proof.Machine

open Sys2Proof Sys2Proof.Machine

/-- Settles O12: each clause reads the bits of its field by getLsbD_statusWord. -/
theorem statusWordFields : Obligations.StatusWordFields := by
  refine ⟨fun s => ⟨?status, ?ack, ?valid, ?busy, ?linkUp, ?dapReady, ?selValid, ?zero, ?ap, ?bank⟩, by decide⟩
  case valid => exact s.getLsbD_statusWord 7 (by decide)
  case busy => exact s.getLsbD_statusWord 8 (by decide)
  case linkUp => exact s.getLsbD_statusWord 9 (by decide)
  case dapReady => exact s.getLsbD_statusWord 10 (by decide)
  case selValid => exact s.getLsbD_statusWord 11 (by decide)
  all_goals
    apply BitVec.eq_of_getLsbD_eq
    intro i hi
    rw [BitVec.getLsbD_extractLsb', s.getLsbD_statusWord _ (by omega)]
    interval_cases i <;> simp
end

section
/-!
PROOFS. The words the block writes (spec/20_memory.md R69, R87, R89): SELECT, the DRW lane of a halfword, CSW, each bit by bit.
-/
namespace Sys2Proof.Machine

/-- Bit `i` of a bank's significant part: its high nibble. -/
theorem getLsbD_bankBits (bank : Byte) (i : Nat) : (bankBits bank).getLsbD i = (decide (4 ≤ i) && bank.getLsbD i) := by
  rw [bankBits, BitVec.getLsbD_and]
  by_cases hi : i < 8
  · interval_cases i <;> simp
  · simp [BitVec.getLsbD_of_ge bank i (by omega)]

/-- Bit `i` of a SELECT value: the bank below, the AP index in the high byte (spec/20_memory.md R87). -/
theorem getLsbD_selectValue (ap bank : Byte) {i : Nat} (hi : i < 32) : (selectValue ap bank).getLsbD i =
    if i < 8 then (bankBits bank).getLsbD i else if i < 24 then false else ap.getLsbD (i - 24) := by
  simp only [selectValue, BitVec.getLsbD_or, BitVec.getLsbD_shiftLeft, BitVec.getLsbD_setWidth]
  by_cases h8 : i < 8
  · simp [h8, hi, show i < 24 by omega]
  · rw [BitVec.getLsbD_of_ge (bankBits bank) i (by omega)]
    by_cases h24 : i < 24 <;> simp [h8, h24, hi, show i - 24 < 32 by omega]

/-- Bit `i` of a halfword's DRW word: its half above or below by bit 1 of the address (spec/20_memory.md R69). -/
theorem getLsbD_halfLane (addr : Word) (h : BitVec 16) {i : Nat} (hi : i < 32) : (halfLane addr h).getLsbD i =
    if addr.getLsbD 1 then decide (16 ≤ i) && h.getLsbD (i - 16) else h.getLsbD i := by
  rw [halfLane, BitVec.getLsbD_shiftLeft, BitVec.getLsbD_setWidth]
  cases addr.getLsbD 1 with
  | false => simp [hi]
  | true =>
    by_cases h16 : i < 16
    · simp [h16]
    · simp [h16, hi, show i - 16 < 32 by omega, Nat.le_of_not_lt h16]

/-- Bit `i` of CSW_BASE. -/
theorem getLsbD_cswBase (p : Params) {i : Nat} (hi : i < 32) :
    (cswBase p).getLsbD i = (decide (6 ≤ i) && p.cswHigh.getLsbD (i - 6)) := by
  rw [cswBase, BitVec.getLsbD_shiftLeft, BitVec.getLsbD_setWidth]
  by_cases h6 : i < 6
  · simp [h6]
  · simp [h6, hi, show i - 6 < 32 by omega, Nat.le_of_not_lt h6]

/-- The low six bits of CSW_BASE are 0 (spec/00_scope.md R9), and with a mode in them the others stay. -/
theorem cswBase_or_extract (p : Params) (mode : BitVec 6) :
    (cswBase p ||| mode.setWidth 32).extractLsb' 0 6 = mode ∧
      (cswBase p ||| mode.setWidth 32).extractLsb' 6 26 = p.cswHigh := by
  constructor <;> apply BitVec.eq_of_getLsbD_eq <;> intro i hi <;>
    rw [BitVec.getLsbD_extractLsb', BitVec.getLsbD_or, getLsbD_cswBase p (by omega), BitVec.getLsbD_setWidth]
  · simp [hi, show i < 32 by omega, show ¬6 ≤ i by omega]
  · simp [hi]

theorem cswBase_low (p : Params) : cswBase p &&& 0x3F#32 = 0#32 := by
  apply BitVec.eq_of_getLsbD_eq
  intro i hi
  rw [BitVec.getLsbD_and, getLsbD_cswBase p hi, BitVec.getLsbD_zero]
  interval_cases i <;> simp

end Sys2Proof.Machine

open Sys2Proof Sys2Proof.Machine

/-- Settles O9: each field reads its bits by getLsbD_selectValue. -/
theorem selectValuePacking : Obligations.SelectValuePacking := by
  refine fun ap bank => ⟨?ap, ?zero, ?bank, ?low, rfl, rfl, rfl⟩ <;>
    (apply BitVec.eq_of_getLsbD_eq; intro i hi; rw [BitVec.getLsbD_extractLsb', getLsbD_selectValue ap bank (by omega)])
  case ap => simp [hi, show ¬24 + i < 8 by omega]
  case zero => simp [hi, show 8 + i < 24 by omega]
  case bank => simp [hi, bankBits]
  case low =>
    rw [Nat.zero_add, if_pos (by omega), getLsbD_bankBits, decide_eq_false (show ¬4 ≤ i by omega), Bool.false_and,
      Bool.and_false, BitVec.getLsbD_zero]

/-- Settles O10: both halves read their bits by getLsbD_halfLane, and bit 1 of the address is all the lane depends on. -/
theorem halfwordLane : Obligations.HalfwordLane := by
  refine fun addr h p => ⟨rfl, rfl, fun h1 => ⟨?_, ?_⟩, fun h1 => ⟨?_, ?_⟩, ?odd⟩
  case odd =>
    have h1 : (addr ^^^ 1#32).getLsbD 1 = addr.getLsbD 1 := by simp
    rw [halfLane, h1, halfLane]
  all_goals
    apply BitVec.eq_of_getLsbD_eq
    intro i hi
    rw [BitVec.getLsbD_extractLsb', getLsbD_halfLane addr h (by omega), h1]
    simp [hi]

/-- Settles O11: CSW_WORD and CSW_HALF are CSW_BASE with a mode in its low six bits. -/
theorem cswValues : Obligations.CswValues := by
  intro p
  obtain ⟨hwl, hwh⟩ := cswBase_or_extract p 0b000010#6
  obtain ⟨hhl, hhh⟩ := cswBase_or_extract p 0b000001#6
  exact ⟨cswBase_low p, rfl, rfl, hwl, hhl, hwh, hhh, rfl, fun _ _ => ⟨rfl, rfl⟩⟩
end

section
/-!
PROOFS. A command that lists frames, on a quiet channel: exec of it is the run of its list (State.runOps), which goes as the
frame-level report says (run_report). So a command's answer is read off its report, one entry at a time.
-/
namespace Sys2Proof.Machine

/-! ### The state a command's first frame is entered in -/

section prepare
variable (s : State) (i : Instr)

@[simp] theorem State.prepare_par : (s.prepare i).par = s.par := by
  unfold State.prepare; split <;> rfl
@[simp] theorem State.prepare_env : (s.prepare i).env = s.env := by
  unfold State.prepare; split <;> rfl
@[simp] theorem State.prepare_cmd : (s.prepare i).cmd = (s.begin i).cmd := by
  unfold State.prepare; split <;> rfl
@[simp] theorem State.prepare_result : (s.prepare i).result = 0#32 := by
  unfold State.prepare; split <;> rfl
@[simp] theorem State.prepare_dp : (s.prepare i).dp = s.dp := by
  unfold State.prepare; split <;> rfl

/-- Every command but POWER_UP enters its first frame with the cache as it is (spec/20_memory.md R83, R84). -/
theorem State.prepare_cache_of_ne {i : Instr} (h : i ≠ .powerUp) : (s.prepare i).cache = s.cache := by
  rw [State.prepare, if_neg h, State.begin_cache]

end prepare

theorem State.prepare_quiet {s : State} (h : s.quiet) (i : Instr) : (s.prepare i).quiet := by
  rwa [State.quiet, State.prepare_env]

theorem request_of_listsFrames {i : Instr} (h : listsFrames i = true) : i.request = none := by
  revert h
  cases i <;> simp [listsFrames, Instr.request]

/-- exec of a command whose conditions hold runs its list of frames (spec/42_transaction.md R160). -/
theorem exec_runOps {s : State} {i : Instr} (hs : s.seq = .idle) (hi : listsFrames i = true) (hl : s.linkUp = true)
    (hp : needsPower i = true → s.dapReady = true) : exec i s = .next ((s.prepare i).runOps (frames s.par i)) := by
  have link (body : State → State) : s.command i (fun s => s.requireLink body) = body (s.begin i) :=
    (State.command_idle hs i _).trans (if_pos hl)
  have power (body : State → State) (hn : needsPower i = true) :
      s.command i (fun s => s.requireLink fun s => s.requirePower body) = body (s.begin i) :=
    (link _).trans (if_pos (hp hn))
  cases i with
  | wireRead p a => exact congrArg _ (link _)
  | wireWrite p a d => exact congrArg _ (link _)
  | selectBank ap bank => exact congrArg _ (link _)
  | powerUp => exact congrArg _ (link _)
  | memRead a => exact congrArg _ (power _ rfl)
  | memWrite a d => exact congrArg _ (power _ rfl)
  | memWriteHalf a h => exact congrArg _ (power _ rfl)
  | _ => cases hi

/-! ### Its answer -/

/-- A command `i` begun in `s` has ended in `u` as `r` reports, and the levels `rest` are left. -/
structure Follows (i : Instr) (s u : State) (r : Report) (rest : List Bool) : Prop where
  ended : Ended i s u r.rsp.status r.rsp.ack r.rsp.data
  exchanged : Exchanged s u r.trace rest r.records
  cache : u.cache = r.cache
  linkUp : u.linkUp = s.linkUp
  dapReady : u.dapReady = if i = .powerUp then decide (r.rsp.status = statusOk) else s.dapReady

/-- A command that has ended, seen from before it began: its latches hold it. -/
theorem Ended.of_prepare {s u : State} {i : Instr} {status : BitVec 4} {ack : BitVec 3} {data : Word}
    (hi : i.request = none) (rsp : u.rsp = ⟨true, status, ack, data⟩) (busy : u.busy = false) (seq : u.seq = .idle)
    (cmd : u.cmd = (s.prepare i).cmd) (outside : SameOutside s u) : Ended i s u status ack data where
  rsp := rsp
  busy := busy
  seq := seq
  current := by rw [← s.prepare_current hi, State.current, cmd]; rfl
  latches h := by rw [cmd, State.prepare_cmd, State.begin_cmd, if_pos h]
  outside := outside

theorem SameOutside.of_prepare {s u : State} {i : Instr} (h : SameOutside (s.prepare i) u) : SameOutside s u :=
  ⟨by simpa using h.par, by simpa using h.offers, by simpa using h.resets, by simpa using h.linkFaults⟩

theorem Exchanged.of_prepare {s u : State} {i : Instr} {es : List Event} {ls : List Bool} {fs : List FrameRecord}
    (h : Exchanged (s.prepare i) u es ls fs) : Exchanged s u es ls fs where
  ran := h.ran.of_eq (by simp) (by simp) (by simp) (by simp) (by simp) (by simp) rfl rfl rfl rfl rfl
  levels := h.levels
  records := by simpa using h.records

/-- Only POWER_UP writes `dap_ready` (spec/10_state.md R36). -/
theorem Follows.dapReady_of_ne {i : Instr} {s u : State} {r : Report} {rest : List Bool} (h : Follows i s u r rest)
    (hi : i ≠ .powerUp) : u.dapReady = s.dapReady := by rw [h.dapReady, if_neg hi]

theorem Reported.follows {s u : State} {i : Instr} {r : Report} {rest : List Bool} (hi : i.request = none)
    (h : Reported (s.prepare i) u r rest) (hv : r.rsp.valid = true) : Follows i s u r rest where
  ended := .of_prepare hi (by rw [h.rsp, ← hv]) h.busy h.seq h.cmd h.outside.of_prepare
  exchanged := h.exchanged.of_prepare
  cache := h.cache
  linkUp := by simpa using h.linkUp
  dapReady := by
    rw [h.dapReady, s.prepare_current hi, State.prepare_dapReady]
    by_cases hp : i = .powerUp <;> simp [hp]

/-- A command that lists frames, on a quiet channel, with one answer to each frame that comes to the wire. -/
theorem exec_follows {s : State} {i : Instr} {as : List Answer} {rest : List Bool} (hq : s.quiet) (hs : s.seq = .idle)
    (hi : listsFrames i = true) (hl : s.linkUp = true) (hp : needsPower i = true → s.dapReady = true)
    (ha : Answered (frames s.par i) as (s.prepare i).cache) (hlv : s.env.levels = as.flatMap Answer.levels ++ rest) :
    ∃ u, exec i s = .next u ∧
      Follows i s u (report (frames s.par i) as s.pins.swdioOe (s.prepare i).cache 0#32 0#3) rest := by
  have hreq := request_of_listsFrames hi
  have hrun := run_report (frames s.par i) (s.prepare i) 0 maxFrames 0#3 as rest (s.prepare_quiet hq i)
    (s.prepare_frames hreq) (length_frames_le s.par i) ha (by rwa [State.prepare_env])
  rw [State.prepare_pins, State.prepare_result] at hrun
  exact ⟨_, exec_runOps hs hi hl hp, hrun.follows hreq (report_valid _ _ _ _ _ _)⟩

/-- The same for every command but POWER_UP, which alone clears the cache before its first frame. -/
theorem exec_follows_of_ne {s : State} {i : Instr} {as : List Answer} {rest : List Bool} (hne : i ≠ .powerUp) (hq : s.quiet)
    (hs : s.seq = .idle) (hi : listsFrames i = true) (hl : s.linkUp = true) (hp : needsPower i = true → s.dapReady = true)
    (ha : Answered (frames s.par i) as s.cache) (hlv : s.env.levels = as.flatMap Answer.levels ++ rest) :
    ∃ u, exec i s = .next u ∧ Follows i s u (report (frames s.par i) as s.pins.swdioOe s.cache 0#32 0#3) rest := by
  have hc := s.prepare_cache_of_ne hne
  have h := exec_follows hq hs hi hl hp (by rwa [hc]) hlv
  rwa [hc] at h

/-! ### Reports, one entry at a time -/

section report
variable {op : FrameOp} {ops : List FrameOp} {as : List Answer} {oe : Bool} {c : Cache} {v : Word} {ack : BitVec 3}

@[simp] theorem Report.behind_trace (r : Report) (es : List Event) (f : FrameRecord) :
    (r.behind es f).trace = es ++ r.trace := rfl
@[simp] theorem Report.behind_records (r : Report) (es : List Event) (f : FrameRecord) :
    (r.behind es f).records = f :: r.records := rfl
@[simp] theorem Report.behind_cache (r : Report) (es : List Event) (f : FrameRecord) :
    (r.behind es f).cache = r.cache := rfl
@[simp] theorem Report.behind_rsp (r : Report) (es : List Event) (f : FrameRecord) : (r.behind es f).rsp = r.rsp := rfl

theorem report_nil : report [] as oe c v ack = ⟨[], [], c, ⟨true, statusOk, ack, v⟩⟩ := rfl

theorem report_hit (h : op.hits c = true) : report (op :: ops) as oe c v ack = report ops as oe c v ack := by
  simp only [report, h, if_true]

theorem report_unanswered (h : op.hits c = false) :
    report (op :: ops) [] oe c v ack = ⟨[], [], c, ⟨true, statusOk, ack, v⟩⟩ := by
  simp only [report, h, Bool.false_eq_true, if_false]

theorem report_bad (h : op.hits c = false) (t : Bool) (k : BitVec 3) :
    report (op :: ops) (.bad t k :: as) oe c v ack = ⟨requestTrace oe op.request t k,
      [⟨op.request.header, if op.request.rnw then 0#32 else op.data, k, .ackFault⟩], op.cacheOnFault c,
      ⟨true, statusAckFault, k, 0#32⟩⟩ := by
  simp only [report, h, Bool.false_eq_true, if_false]

theorem report_read (h : op.hits c = false) (t : Bool) (d : Word) (i0 i1 : Bool) :
    report (op :: ops) (.read t d (parity32 d) i0 i1 :: as) oe c v ack =
      (report ops as false c (if op.keeps then d else v) ackOk).behind
        (readTrace oe op.request t d (parity32 d) i0 i1) (completedFrame op.request d) := by
  simp only [report, h, Bool.false_eq_true, if_false, if_true]

theorem report_parityError (h : op.hits c = false) {t p i0 i1 : Bool} {d : Word} (hp : p ≠ parity32 d) :
    report (op :: ops) (.read t d p i0 i1 :: as) oe c v ack =
      ⟨readTrace oe op.request t d p i0 i1, [⟨op.request.header, d, ackOk, .parityError⟩], c,
        ⟨true, statusParityError, ackOk, d⟩⟩ := by
  simp only [report, h, hp, Bool.false_eq_true, if_false]

theorem report_write (h : op.hits c = false) (t0 t1 : Bool) :
    report (op :: ops) (.write t0 t1 :: as) oe c v ack =
      (report ops as true (op.cacheOnOk c) v ackOk).behind (writeTrace oe op.request op.data t0 t1)
        (completedFrame op.request op.data) := by
  simp only [report, h, Bool.false_eq_true, if_false]

/-! An answer to each frame. -/

theorem answered_bad (h : op.hits c = false) (t : Bool) {k : BitVec 3} (hk : k ≠ ackOk) :
    Answered (op :: ops) [.bad t k] c := by
  simp only [Answered, h, Bool.false_eq_true, if_false]
  exact ⟨hk, trivial⟩

theorem answered_read (h : op.hits c = false) (hr : op.request.rnw = true) (t : Bool) (d : Word) (i0 i1 : Bool)
    (ha : Answered ops as c) : Answered (op :: ops) (.read t d (parity32 d) i0 i1 :: as) c := by
  simp only [Answered, h, Bool.false_eq_true, if_false, if_true]
  exact ⟨hr, ha⟩

theorem answered_write (h : op.hits c = false) (hw : op.request.rnw = false) (t0 t1 : Bool)
    (ha : Answered ops as (op.cacheOnOk c)) : Answered (op :: ops) (.write t0 t1 :: as) c := by
  simp only [Answered, h, Bool.false_eq_true, if_false]
  exact ⟨hw, ha⟩

end report

end Sys2Proof.Machine
end

section
/-!
PROOFS. The raw write and the commands that select a bank, on a quiet channel: each answer is the report of the command's list
of frames under the answers the levels hold. And a bank selection that hits the cache, which needs no answer.
-/
namespace Sys2Proof.Machine

/-- The header of a SELECT write (spec/30_encoding.md R97). -/
theorem selectRequest_header : selectRequest.header = 0xB1#8 := by decide

/-- A bank selection that misses the cache emits its frame (spec/20_memory.md R79). -/
theorem FrameOp.select_misses {c : Cache} {ap bank : Byte}
    (h : ¬(c.valid = true ∧ c.ap = ap ∧ c.bank = bank &&& 0xF0#8)) : (FrameOp.select ap bank).hits c = false := by
  rw [← Cache.hit_iff] at h
  simpa [FrameOp.hits] using h

/-- SWDIO is left driving 0 by a write frame, SWCLK high (spec/41_wire_codec.md R136). -/
theorem Ran.writeTrace_pins {s u : State} {r : Request} {d : Word} {t0 t1 : Bool}
    (h : Ran s u (writeTrace s.pins.swdioOe r d t0 t1)) :
    u.pins.swdioOe = true ∧ u.pins.swdioO = false ∧ u.pins.swclkO = true := by
  obtain ⟨hclk, hdio⟩ := writeTrace_levels s.pins s.pins.swdioOe r d t0 t1
  rw [h.pins]
  exact ⟨writeTrace_swdioOe s.pins r d t0 t1, hdio, hclk⟩

/-- A command whose entries all hit the cache completes at once (spec/42_transaction.md R161; spec/60_exceptions.md R201). -/
theorem State.runOps_hits {s : State} {ops : List FrameOp} (h : ∀ op ∈ ops, op.hits s.cache = true) :
    s.runOps ops = s.complete 0#3 := by
  obtain ⟨j, op, hj, hm, -⟩ | ⟨-, he⟩ := State.enter_cases ops 0 0#3 s
  · rw [h op (List.mem_of_getElem? hj)] at hm
    cases hm
  · rw [State.runOps, he]
    exact State.runFrames_idle rfl maxFrames

end Sys2Proof.Machine

open Sys2Proof Sys2Proof.Machine

/-- Settles O29: the report of the one write entry, whose cache at the start is that of its end. -/
theorem wireWriteSendsTheWord : Obligations.WireWriteSendsTheWord := by
  intro s p a d t0 t1 rest hq hs hl hlv
  obtain ⟨u, hu, hf⟩ := exec_follows_of_ne (i := .wireWrite p a d) (as := [.write t0 t1]) nofun hq hs rfl hl nofun
    (answered_write rfl rfl t0 t1 rfl) (by simpa [Answer.levels] using hlv)
  rw [frames, framesWireWrite, report_write rfl, report_nil] at hf
  have hex : Exchanged s u (writeTrace s.pins.swdioOe ⟨p, false, a⟩ d t0 t1) rest [completedFrame ⟨p, false, a⟩ d] := by
    simpa [FrameOp.request, FrameOp.data] using hf.exchanged
  exact ⟨u, hu, hf.ended, hex, hf.linkUp, hf.dapReady_of_ne nofun, hf.cache, hex.ran.writeTrace_pins⟩

/-- Settles O30: the one entry hits, so the command completes where it is entered. -/
theorem selectBankHitEmitsNothing : Obligations.SelectBankHitEmitsNothing := by
  intro s ap bank hs hl hv hap hbank
  have hc := s.prepare_cache_of_ne (i := .selectBank ap bank) nofun
  have hrun := State.runOps_hits (s := s.prepare (.selectBank ap bank)) (ops := framesSelectBank ap bank) (by
    intro op hop
    rw [List.mem_singleton.mp hop, FrameOp.hits, hc]
    exact (Cache.hit_iff _ _ _).mpr ⟨hv, hap, hbank⟩)
  obtain ⟨hex, hout⟩ := Exchanged.nothing (s := s) (u := (s.prepare (.selectBank ap bank)).complete 0#3)
    (by simp) (by simp) (by simp) (by simp) (by simp)
  have hcur : (s.prepare (.selectBank ap bank)).current ≠ some .powerUp := by
    rw [s.prepare_current rfl]
    exact nofun
  refine ⟨_, exec_runOps hs rfl hl nofun, ?_⟩
  rw [frames, hrun]
  exact ⟨.of_prepare rfl (by simp) rfl rfl (by simp) hout, ⟨by simp, by simp [hcur], by simp⟩, hex, by simp⟩

/-- Settles O31: the report of the one entry, a SELECT write with ACK OK. -/
theorem selectBankMissWritesSelect : Obligations.SelectBankMissWritesSelect := by
  intro s ap bank t0 t1 rest hq hs hl hm hlv
  have hmiss := FrameOp.select_misses hm
  obtain ⟨u, hu, hf⟩ := exec_follows_of_ne (i := .selectBank ap bank) (as := [.write t0 t1]) nofun hq hs rfl hl nofun
    (answered_write hmiss rfl t0 t1 rfl) (by simpa [Answer.levels] using hlv)
  rw [frames, framesSelectBank, report_write hmiss, report_nil] at hf
  have hex := hf.exchanged
  simp only [Report.behind_trace, Report.behind_records, List.append_nil] at hex
  exact ⟨u, hu, hf.ended, hex, hf.linkUp, hf.dapReady_of_ne nofun, hf.cache⟩

/-- Settles O32: the report of the one entry, a SELECT write whose ACK is not OK. -/
theorem selectBankAckFaultInvalidates : Obligations.SelectBankAckFaultInvalidates := by
  intro s ap bank t bad rest hq hs hl hbad hm hlv
  have hmiss := FrameOp.select_misses hm
  obtain ⟨u, hu, hf⟩ := exec_follows_of_ne (i := .selectBank ap bank) (as := [.bad t bad]) nofun hq hs rfl hl nofun
    (answered_bad hmiss t hbad) (by simpa [Answer.levels] using hlv)
  rw [frames, framesSelectBank, report_bad hmiss] at hf
  have hex := hf.exchanged
  rw [show (FrameOp.select ap bank).request.header = 0xB1#8 from selectRequest_header] at hex
  exact ⟨u, hu, hf.ended, hex, hf.linkUp, hf.dapReady_of_ne nofun, hf.cache⟩

/-- Settles O33: the reports of the five entries; POWER_UP has cleared the cache, so its bank selection misses. -/
theorem powerUpRuns : Obligations.PowerUpRuns := by
  intro s t0 i0 i1 a0 a1 b0 b1 c0 c1 e0 e1 id rest hq hs hl hlv
  have hc : (s.prepare .powerUp).cache = { s.cache with valid := false } := by simp
  obtain ⟨u, hu, hf⟩ := exec_follows (i := .powerUp)
    (as := [.read t0 id (parity32 id) i0 i1, .write a0 a1, .write b0 b1, .write c0 c1, .write e0 e1]) hq hs rfl hl nofun
    (by rw [hc]; exact answered_read rfl rfl t0 id i0 i1 (answered_write rfl rfl a0 a1 (answered_write rfl rfl b0 b1
      (answered_write rfl rfl c0 c1 (answered_write rfl rfl e0 e1 rfl)))))
    (by simpa [Answer.levels] using hlv)
  rw [hc, frames, framesPowerUp, report_read rfl, report_write rfl, report_write rfl, report_write rfl, report_write rfl,
    report_nil] at hf
  have hex := hf.exchanged
  simp only [Report.behind_trace, Report.behind_records, List.append_nil] at hex
  exact ⟨u, hu, hf.ended, hex, hf.linkUp, hf.dapReady, hf.cache⟩

/-- Settles O47: a write header on an idle block is the raw write that carries it (exec_commandOf), settled by O29. -/
theorem writeRequestsComplete : Obligations.WriteRequestsComplete := by
  intro s i r d t0 t1 rest hi hr hq hs hl hlv
  obtain ⟨p, w, a⟩ := r
  have hw : w = false := by
    simp only [List.mem_cons, List.not_mem_nil, or_false] at hi
    obtain rfl | rfl | rfl | rfl | rfl | rfl | rfl | rfl := hi <;> cases hr <;> rfl
  subst hw
  have hc : commandOf i = .wireWrite p a d := by rw [commandOf, hr]; rfl
  obtain ⟨u, hu, hend, hex, hlink, hready, hcache, -⟩ := wireWriteSendsTheWord s p a d t0 t1 rest hq hs hl hlv
  refine ⟨u, by rw [exec_commandOf hs, hc, hu], hend, hex, hlink, hready, ?_⟩
  rw [hcache]
  simp [selectRequest]

/-- Settles O50: the frame runs as State.run_ackFaultFrame says. -/
theorem failedAckEndsTheCommand : Obligations.FailedAckEndsTheCommand := by
  intro s i k op t bad rest hq hs hk hi hbad hlv
  obtain ⟨u, hrun, hdid, hrsp, hbusy, hidle, hcache⟩ := State.run_ackFaultFrame hq hk hbad hlv
  refine ⟨u, ?_, hdid.exchanged, hdid.outside, hdid.cmd, hdid.linkUp, hdid.dapReady, hcache, hrsp, hbusy, hidle⟩
  rw [exec_request hi, State.request_at hs, hrun]
end

section
/-!
PROOFS. How many SELECT writes a bank-selecting command emits (spec/42_transaction.md R168), counted in its report.
-/
namespace Sys2Proof.Machine

/-! ### Entries that are no SELECT write -/

section noSelect
variable {op : FrameOp} (h : op.request ≠ selectRequest) (c : Cache)
include h

theorem FrameOp.selects_of_request_ne : op.selects = false := by
  cases op with
  | select ap bank => exact absurd rfl h
  | read p a keep => rfl
  | write p a d => rfl

theorem FrameOp.hits_of_request_ne : op.hits c = false := by
  cases op with
  | select ap bank => exact absurd rfl h
  | read p a keep => rfl
  | write p a d => rfl

/-- The cache at the start of the frame is the cache before it: no raw SELECT write (spec/20_memory.md R82). -/
theorem FrameOp.cacheAtStart_of_request_ne : op.cacheAtStart c = c := by
  cases op with
  | select ap bank => rfl
  | read p a keep => rfl
  | write p a d =>
    refine if_neg ?_
    rintro ⟨rfl, rfl⟩
    exact h rfl

/-- The frame leaves the cache alone, however it ends (spec/20_memory.md R84). -/
theorem FrameOp.cache_of_request_ne : op.cacheOnOk c = c ∧ op.cacheOnFault c = c := by
  have hc := FrameOp.cacheAtStart_of_request_ne h c
  cases op with
  | select ap bank => exact absurd rfl h
  | read p a keep => exact ⟨rfl, rfl⟩
  | write p a d => exact ⟨hc, hc⟩

end noSelect

/-! ### Counting -/

/-- A frame's record is a SELECT write's if its request is. -/
theorem isSelect_header (r : Request) (d : Word) (k : BitVec 3) (e : FrameEnd) :
    FrameRecord.isSelect ⟨r.header, d, k, e⟩ = decide (r = selectRequest) :=
  decide_eq_decide.mpr (header_eq_selectHeader_iff r)

/-- The number of SELECT writes among the frames of a report. -/
def Report.selects (r : Report) : Nat := r.records.countP FrameRecord.isSelect

theorem Report.selects_behind (r : Report) (es : List Event) (q : Request) (d : Word) :
    (r.behind es (completedFrame q d)).selects = r.selects + if q = selectRequest then 1 else 0 := by
  simp only [selects, behind_records, List.countP_cons, completedFrame, isSelect_header, decide_eq_true_eq]

/-- A report of one frame that is no SELECT write. -/
theorem Report.selects_single {q : Request} (h : q ≠ selectRequest) (es : List Event) (d : Word) (k : BitVec 3) (e : FrameEnd)
    (c : Cache) (rsp : Response) : Report.selects ⟨es, [⟨q.header, d, k, e⟩], c, rsp⟩ = 0 := by
  simp [selects, isSelect_header, h]

/-- Entries none of which is a SELECT write: their report counts none, and the cache stays. -/
theorem report_noSelect {ops : List FrameOp} (h : ∀ op ∈ ops, op.request ≠ selectRequest) (c : Cache) :
    ∀ as oe v ack, (report ops as oe c v ack).selects = 0 ∧ (report ops as oe c v ack).cache = c := by
  induction ops with
  | nil => exact fun _ _ _ _ => ⟨rfl, rfl⟩
  | cons op ops ih =>
    intro as oe v ack
    obtain ⟨hop, hops⟩ := List.forall_mem_cons.mp h
    have hm := FrameOp.hits_of_request_ne hop c
    obtain ⟨hok, hfault⟩ := FrameOp.cache_of_request_ne hop c
    cases as with
    | nil => rw [report_unanswered hm]; exact ⟨rfl, rfl⟩
    | cons a as =>
      cases a with
      | bad t k => rw [report_bad hm, hfault]; exact ⟨Report.selects_single hop _ _ _ _ _ _, rfl⟩
      | write t0 t1 =>
        rw [report_write hm, hok, Report.selects_behind, if_neg hop]
        exact ih hops as true v ackOk
      | read t d p i0 i1 =>
        by_cases hp : p = parity32 d
        · subst hp
          rw [report_read hm, Report.selects_behind, if_neg hop]
          exact ih hops as false _ ackOk
        · rw [report_parityError hm hp]
          exact ⟨Report.selects_single hop _ _ _ _ _ _, rfl⟩

/-- A bank selection and entries behind it that are no SELECT write: one SELECT write on a miss, none on a hit, and then the
cache hits (spec/42_transaction.md R168). -/
theorem report_select {ap bank : Byte} {ops : List FrameOp} (h : ∀ op ∈ ops, op.request ≠ selectRequest) {c : Cache}
    {as : List Answer} {oe : Bool} {v : Word} {ack : BitVec 3} (ha : Answered (.select ap bank :: ops) as c)
    (hok : (report (.select ap bank :: ops) as oe c v ack).rsp.status = statusOk) :
    (report (.select ap bank :: ops) as oe c v ack).selects = (if c.hit ap bank then 0 else 1) ∧
      (report (.select ap bank :: ops) as oe c v ack).cache.hit ap bank = true := by
  cases hm : (FrameOp.select ap bank).hits c with
  | true =>
    obtain ⟨hsel, hc⟩ := report_noSelect h c as oe v ack
    rw [report_hit hm, hsel, hc]
    exact ⟨(if_pos hm).symm, hm⟩
  | false =>
    have hmiss : ¬c.hit ap bank = true := by rw [show c.hit ap bank = false from hm]; exact Bool.false_ne_true
    simp only [Answered, hm, Bool.false_eq_true, if_false] at ha
    cases as with
    | nil => exact ha.elim
    | cons a as =>
      cases a with
      | bad t k => rw [report_bad hm] at hok; cases hok
      | read t d p i0 i1 => cases ha.1
      | write t0 t1 =>
        obtain ⟨hsel, hc⟩ := report_noSelect h ⟨true, ap, bankBits bank⟩ as true v ackOk
        rw [report_write hm, Report.selects_behind, Report.behind_cache, FrameOp.cacheOnOk, hsel, hc, if_neg hmiss]
        exact ⟨rfl, (Cache.hit_iff _ _ _).mpr ⟨rfl, rfl, rfl⟩⟩

/-- A bank-selecting command lists its bank selection first, and no other SELECT write (spec/42_transaction.md R162 to R167). -/
theorem frames_of_bankSelecting {i : Instr} {ap bank : Byte}
    (h : i = .selectBank ap bank ∨ (needsPower i = true ∧ ap = 0x00#8 ∧ bank = 0x00#8)) (p : Params) :
    listsFrames i = true ∧ i ≠ .powerUp ∧
      ∃ ops, frames p i = .select ap bank :: ops ∧ ∀ op ∈ ops, op.request ≠ selectRequest := by
  obtain rfl | ⟨hn, rfl, rfl⟩ := h
  · exact ⟨rfl, nofun, [], rfl, nofun⟩
  · cases i with
    | memRead a => exact ⟨rfl, nofun, _, rfl, by simp [FrameOp.request, selectRequest]⟩
    | memWrite a d => exact ⟨rfl, nofun, _, rfl, by simp [FrameOp.request, selectRequest]⟩
    | memWriteHalf a d => exact ⟨rfl, nofun, _, rfl, by simp [FrameOp.request, selectRequest]⟩
    | _ => cases hn

theorem Follows.selectCount_eq {i : Instr} {s u : State} {r : Report} {rest : List Bool} (h : Follows i s u r rest) :
    selectCount u = selectCount s + r.selects := by
  rw [selectCount, h.exchanged.records, List.countP_append]
  rfl

end Sys2Proof.Machine

open Sys2Proof Sys2Proof.Machine

/-- Settles O44: the command's answer is its report, and report_select counts in it. -/
theorem selectFramesOnlyOnMiss : Obligations.SelectFramesOnlyOnMiss := by
  intro s i ap bank as rest hq hs hl hp hi ha hlv
  obtain ⟨hlist, hne, ops, hframes, hops⟩ := frames_of_bankSelecting hi s.par
  obtain ⟨u, hu, hf⟩ := exec_follows_of_ne hne hq hs hlist hl hp ha hlv
  rw [hframes] at hf ha
  refine ⟨u, hu, fun hok => ?_⟩
  obtain ⟨hsel, hhit⟩ := report_select hops ha (by rwa [hf.ended.rsp] at hok)
  exact ⟨by rw [hf.selectCount_eq, hsel], by rw [hf.cache, hhit]⟩
end

section
/-!
PROOFS. Who writes the bank cache (spec/20_memory.md R79 to R84): while a command that lists no SELECT write runs, every bit
cycle keeps the cache, whatever is scheduled, unless block reset ends the command.
-/
namespace Sys2Proof.Machine

/-- The command in progress lists no SELECT write. -/
def State.NoSelect (s : State) : Prop := ∀ op ∈ s.frames, op.request ≠ selectRequest

/-- The cache is `c` and the command writes no SELECT; or block reset has ended it. -/
inductive KeepsCache (c : Cache) (s : State) : Prop where
  | running : s.cache = c → s.NoSelect → KeepsCache c s
  | reset : s.rsp.valid = false → s.seq = .idle → KeepsCache c s

theorem State.NoSelect.congr {s u : State} (h : s.NoSelect) (cmd : u.cmd = s.cmd) (par : u.par = s.par) : u.NoSelect := by
  rwa [NoSelect, State.frames_eq cmd par]

theorem KeepsCache.congr {c : Cache} {s u : State} (hc : s.cache = c) (hn : s.NoSelect) (cache : u.cache = s.cache)
    (cmd : u.cmd = s.cmd) (par : u.par = s.par) : KeepsCache c u :=
  .running (cache.trans hc) (hn.congr cmd par)

theorem State.mem_frames_of_frameOp {s : State} {op : FrameOp} (h : s.frameOp = some op) : op ∈ s.frames := by
  unfold State.frameOp at h
  split at h
  · cases h
  · exact List.mem_of_getElem? h

theorem State.NoSelect.selecting {s : State} (h : s.NoSelect) : s.selecting = false := by
  cases hop : s.frameOp with
  | none => rw [State.selecting, hop]
  | some op =>
    rw [State.selecting_of hop, FrameOp.selects_of_request_ne (h op (State.mem_frames_of_frameOp hop))]

/-- An error in a frame that is no SELECT write leaves the cache alone (spec/20_memory.md R84). -/
theorem State.NoSelect.forgetBankIfSelecting {s : State} (h : s.NoSelect) : s.forgetBankIfSelecting = s := by
  rw [State.forgetBankIfSelecting, h.selecting, if_neg Bool.false_ne_true]

/-- A channel failure too leaves the cache alone, in a frame that is no SELECT write (spec/60_exceptions.md R205). -/
theorem State.NoSelect.raiseTransportError {s : State} (h : s.NoSelect) :
    s.raiseTransportError.cache = s.cache ∧ s.raiseTransportError.cmd = s.cmd ∧ s.raiseTransportError.par = s.par := by
  simp only [State.raiseTransportError]
  split
  · rw [State.NoSelect.forgetBankIfSelecting (s := s.logFrame .linkFailed) h]
    exact ⟨rfl, rfl, rfl⟩
  · rw [h.forgetBankIfSelecting]
    exact ⟨rfl, rfl, rfl⟩

/-- A frame that is no SELECT write and completes leaves the cache alone (spec/20_memory.md R80, R84). -/
theorem State.NoSelect.frameEffect_cache {s : State} (h : s.NoSelect) : s.frameEffect.cache = s.cache := by
  cases hop : s.frameOp with
  | none => rw [State.frameEffect, hop]
  | some op =>
    rw [State.frameEffect_of hop]
    cases op with
    | select ap bank => exact absurd rfl (h _ (State.mem_frames_of_frameOp hop))
    | write p a d => rfl
    | read p a keep => cases keep <;> rfl

/-- Entering entries none of which is a SELECT write. -/
theorem State.enter_cache {ops : List FrameOp} (h : ∀ op ∈ ops, op.request ≠ selectRequest) (k : Nat) (ack : BitVec 3)
    (s : State) : (State.enter ops k ack s).cache = s.cache := by
  obtain ⟨j, op, hj, -, he⟩ | ⟨-, he⟩ := State.enter_cases ops k ack s <;> rw [he]
  · have := h op (List.mem_of_getElem? hj)
    rw [State.startFrame, if_neg (fun hs => this hs.1)]
    rfl
  · simp

/-- Entering entries leaves the command as it is. -/
theorem State.enter_cmd_par (ops : List FrameOp) (k : Nat) (ack : BitVec 3) (s : State) :
    (State.enter ops k ack s).cmd = s.cmd ∧ (State.enter ops k ack s).par = s.par := by
  obtain ⟨j, op, -, -, he⟩ | ⟨-, he⟩ := State.enter_cases ops k ack s <;> rw [he] <;> simp

theorem KeepsCache.enter {c : Cache} {s u : State} (hc : u.cache = c) (hn : s.NoSelect) (cmd : u.cmd = s.cmd)
    (par : u.par = s.par) (j k : Nat) (ack : BitVec 3) : KeepsCache c (State.enter (s.frames.drop j) k ack u) := by
  obtain ⟨hcmd, hpar⟩ := State.enter_cmd_par (s.frames.drop j) k ack u
  have hcache := State.enter_cache (ops := s.frames.drop j) (fun op hop => hn op (List.mem_of_mem_drop hop)) k ack u
  exact .running (hcache.trans hc) (hn.congr (hcmd.trans cmd) (hpar.trans par))

/-- Every end of a frame keeps the cache, or is by block reset. -/
theorem KeepsCache.tickEnd {c : Cache} {s t : State} (hc : s.cache = c) (hn : s.NoSelect) (h : TickEnd s t) :
    KeepsCache c t := by
  cases h with
  | idle => exact .running hc hn
  | blockReset u => exact .reset rfl rfl
  | linkFailure u hm =>
    have hnu := hn.congr hm.cmd hm.par
    obtain ⟨hcache, hcmd, hpar⟩ := hnu.raiseTransportError
    exact .congr (hm.cache.trans hc) hnu hcache hcmd hpar
  | ackFault u k n hm =>
    have hnu := hn.congr hm.cmd hm.par
    rw [State.raiseAckFault, hnu.forgetBankIfSelecting]
    exact .congr (hm.cache.trans hc) hnu rfl rfl rfl
  | parityError u k n hm => exact .congr (hm.cache.trans hc) (hn.congr hm.cmd hm.par) rfl rfl rfl
  | frame u k n hm =>
    have hnu := hn.congr hm.cmd hm.par
    exact .enter (by rw [← hc, ← hm.cache]; exact hnu.frameEffect_cache) hnu (by simp) (by simp) _ _ _
  | lineReset u k n hm => exact .congr (hm.cache.trans hc) (hn.congr hm.cmd hm.par) rfl rfl rfl

/-- Every bit cycle keeps the cache, or is cut short by block reset. -/
theorem KeepsCache.tick {c : Cache} {s : State} (h : KeepsCache c s) : KeepsCache c s.tickFlow.state := by
  cases h with
  | reset hv hq =>
    rw [State.tickFlow, hq]
    exact .reset hv hq
  | running hc hn =>
    have ht := s.tickFlow_to
    generalize s.tickFlow = f at ht
    cases ht with
    | on u hm => exact .congr (hm.cache.trans hc) (hn.congr hm.cmd hm.par) rfl rfl rfl
    | off t he => exact .tickEnd hc hn he

theorem KeepsCache.runCommand {c : Cache} {s : State} (h : KeepsCache c s) : KeepsCache c s.runCommand :=
  State.runFrames_keeps (fun _ _ h ht => by simpa [ht] using h.tick) (fun _ _ h ht => by simpa [ht] using h.tick) _ _ h

/-- A command that is not POWER_UP and lists no SELECT write keeps the cache, or block reset ends it. -/
theorem Started.keepsCache {s t : State} {i : Instr} (h : Started s i t) (hi : i.request = none) (hp : i ≠ .powerUp)
    (hn : ∀ op ∈ frames s.par i, op.request ≠ selectRequest) : KeepsCache s.cache t := by
  have hb : (s.begin i).NoSelect := by rwa [State.NoSelect, State.begin_frames hi]
  cases h with
  | lineReset => exact KeepsCache.runCommand (.congr (s := s.begin i) rfl hb rfl rfl rfl)
  | refused st => exact .congr (s := s.begin i) rfl hb rfl rfl rfl
  | ran =>
    have hb' : (s.prepare i).NoSelect := hb.congr (by simp) (by simp)
    have henter := KeepsCache.enter (s.prepare_cache_of_ne hp) hb' rfl rfl 0 0 0#3
    rw [List.drop_zero, State.prepare_frames s hi] at henter
    exact henter.runCommand

/-! ### The commands of the rule -/

/-- The commands whose rules write the bank cache (spec/20_memory.md R79 to R83). -/
def WritesCache (i : Instr) : Prop :=
  (∃ ap bank, i = .selectBank ap bank) ∨ needsPower i = true ∨ forgetsBank i = true

/-- Every other command lists no SELECT write (spec/41_wire_codec.md R138, R139; spec/42_transaction.md R163). -/
theorem frames_noSelect {i : Instr} (h : ¬WritesCache i) (p : Params) : ∀ op ∈ frames p i, op.request ≠ selectRequest := by
  cases i with
  | selectBank ap bank => exact absurd (.inl ⟨ap, bank, rfl⟩) h
  | powerUp => exact absurd (.inr (.inr rfl)) h
  | memRead a => exact absurd (.inr (.inl rfl)) h
  | memWrite a d => exact absurd (.inr (.inl rfl)) h
  | memWriteHalf a h' => exact absurd (.inr (.inl rfl)) h
  | wireRead p a => simp [frames, framesWireRead, FrameOp.request, selectRequest]
  | wireWrite p a d =>
    intro op hop hr
    cases List.mem_singleton.mp hop
    cases hr
    exact h (.inr (.inr rfl))
  | _ => exact nofun

theorem eq_of_selectRequest {i : Instr} {d : Word} (h : i.request = some (selectRequest, d)) : i = .reqDpWriteSelect d := by
  revert h
  cases i <;> simp [Instr.request, selectRequest]

/-- The raw command that carries a header writes the cache only if that is the DP SELECT write (spec/20_memory.md R82). -/
theorem Request.eq_select_of_writesCache {r : Request} {d : Word} (h : WritesCache (r.rawCommand d)) : r = selectRequest := by
  obtain ⟨p, w, a⟩ := r
  cases w with
  | true => obtain ⟨_, _, h⟩ | h | h := h <;> cases h
  | false =>
    obtain ⟨_, _, h⟩ | h | h := h
    · cases h
    · cases h
    · obtain ⟨rfl, rfl⟩ : p = false ∧ a = 2#2 := by simpa [Request.rawCommand, forgetsBank] using h
      rfl

/-- A row that runs as a command of the rule is one, or the DP SELECT write header (log 10). -/
theorem writesCache_of_commandOf {i : Instr} (h : WritesCache (commandOf i)) :
    WritesCache i ∨ ∃ d, i = .reqDpWriteSelect d := by
  unfold commandOf at h
  split at h
  · rename_i r d hr
    rw [Request.eq_select_of_writesCache h] at hr
    exact .inr ⟨d, eq_of_selectRequest hr⟩
  · exact .inl h

end Sys2Proof.Machine

open Sys2Proof Sys2Proof.Machine

/-- Settles O57: every command that is not of the rule keeps the cache (Started.keepsCache), or block reset ends it. -/
theorem bankCacheIsWrittenOnlyByTheRule : Obligations.BankCacheIsWrittenOnlyByTheRule := by
  intro s t i hq ht hne
  obtain ⟨u, hu, hst⟩ := exec_idle hq i
  cases hu.symm.trans ht
  by_cases hw : WritesCache (commandOf i)
  · obtain (hsel | hpow | hfor) | hreq := writesCache_of_commandOf hw
    · exact .inl hsel
    · exact .inr (.inl hpow)
    · exact .inr (.inr (.inl hfor))
    · exact .inr (.inr (.inr (.inl hreq)))
  · have hp : commandOf i ≠ .powerUp := fun e => hw (.inr (.inr (by rw [e]; rfl)))
    cases hst.keepsCache (commandOf_request i) hp (frames_noSelect hw s.par) with
    | running hc => exact absurd hc hne
    | reset hv => exact .inr (.inr (.inr (.inr hv)))
end

section
/-!
PROOFS. Encoding and decoding (spec/30_encoding.md R91 to R98): the header bytes that decode, and the command words that do. A
command word that meets a row of R94 has the row's OP, so a word meets one row if it is legal and none if not.
-/
namespace Sys2Proof

/-! ### Request headers -/

/-- The header and word of a request row decode to that row (spec/30_encoding.md R97). -/
theorem decodeFrame_of_request {i : Instr} {r : Request} {d : Word} (h : i.request = some (r, d)) :
    decodeFrame r.header d = some i := by
  cases i <;> cases h <;> rfl

/-- The header bytes of the table of spec/30_encoding.md R97. -/
def requestHeaders : List Byte :=
  [0x81#8, 0xA9#8, 0xB1#8, 0x99#8, 0xA5#8, 0x8D#8, 0x95#8, 0xBD#8, 0xA3#8, 0x8B#8, 0x93#8, 0xBB#8, 0x87#8, 0xAF#8, 0xB7#8,
    0x9F#8]

/-- A byte decodes exactly when it is in the table, whatever the word beside it. -/
theorem isSome_decodeFrame (h : Byte) (d : Word) : (decodeFrame h d).isSome = decide (h ∈ requestHeaders) := by
  simp only [decodeFrame, apply_ite Option.isSome, Option.isSome_some, Option.isSome_none, requestHeaders, List.mem_cons,
    List.not_mem_nil, Bool.decide_or, Bool.if_true_left, decide_false]

/-- The bytes of the table are the bytes that are legal by spec/30_encoding.md R98. -/
theorem headerLegal_eq_mem (h : Byte) : headerLegal h = decide (h ∈ requestHeaders) := by
  revert h
  decide

/-- The bit places of a request header (spec/30_encoding.md R95). -/
theorem Request.getLsbD_header (r : Request) :
    r.header.getLsbD 0 = true ∧ r.header.getLsbD 1 = r.apndp ∧ r.header.getLsbD 2 = r.rnw ∧
      r.header.getLsbD 3 = r.a.getLsbD 0 ∧ r.header.getLsbD 4 = r.a.getLsbD 1 ∧ r.header.getLsbD 5 = r.parity ∧
      r.header.getLsbD 6 = false ∧ r.header.getLsbD 7 = true := by
  obtain ⟨p, w, a⟩ := r
  revert p w a
  decide

/-! ### Command words -/

/-- Two words are equal if they agree on the fields of the command-word layout (spec/30_encoding.md R91). -/
theorem word_eq_iff_fields (v w : Word) : v = w ↔
    v.extractLsb' 24 8 = w.extractLsb' 24 8 ∧ v.extractLsb' 8 16 = w.extractLsb' 8 16 ∧
      v.extractLsb' 7 1 = w.extractLsb' 7 1 ∧ v.extractLsb' 4 3 = w.extractLsb' 4 3 ∧
      v.extractLsb' 0 4 = w.extractLsb' 0 4 := by
  have join (x : Word) : x = x.extractLsb' 24 8 ++ x.extractLsb' 8 16 ++ x.extractLsb' 7 1 ++ x.extractLsb' 4 3 ++
      x.extractLsb' 0 4 := by
    apply BitVec.eq_of_getLsbD_eq
    intro i hi
    simp only [BitVec.getLsbD_append, BitVec.getLsbD_extractLsb']
    interval_cases i <;> simp
  refine ⟨fun h => by simp [h], fun ⟨reserved, bank, bit7, register, op⟩ => ?_⟩
  rw [join v, reserved, bank, bit7, register, op, ← join w]

/-- The mask of the row of an OP (spec/30_encoding.md R94): all bits but those of the fields the command uses. -/
def opMask (op : BitVec 4) : Word :=
  if op = 2#4 ∨ op = 3#4 then 0xFFFFFF8F#32 else if op = 4#4 then 0xFF0000FF#32 else 0xFFFFFFFF#32

theorem opMask_fields (op : BitVec 4) :
    (opMask op).extractLsb' 24 8 = BitVec.allOnes 8 ∧
      (opMask op).extractLsb' 8 16 = (if op = 4#4 then 0#16 else BitVec.allOnes 16) ∧
      (opMask op).extractLsb' 7 1 = BitVec.allOnes 1 ∧
      (opMask op).extractLsb' 4 3 = (if op = 2#4 ∨ op = 3#4 then 0#3 else BitVec.allOnes 3) ∧
      (opMask op).extractLsb' 0 4 = BitVec.allOnes 4 := by
  revert op
  decide

theorem opMatch_fields (op : BitVec 4) :
    (op.setWidth 32 : Word).extractLsb' 24 8 = 0#8 ∧ (op.setWidth 32 : Word).extractLsb' 8 16 = 0#16 ∧
      (op.setWidth 32 : Word).extractLsb' 7 1 = 0#1 ∧ (op.setWidth 32 : Word).extractLsb' 4 3 = 0#3 ∧
      (op.setWidth 32 : Word).extractLsb' 0 4 = op := by
  revert op
  decide

/-- The OPs of the eight commands (spec/30_encoding.md R92). -/
def commandOps : List (BitVec 4) := [1#4, 2#4, 3#4, 4#4, 5#4, 6#4, 7#4, 8#4]

/-- A field that a mask drops under a condition is compared with 0 unless the condition holds. -/
theorem and_field_eq_zero {w : Nat} (x : BitVec w) (p : Prop) [Decidable p] :
    x &&& (if p then 0#w else BitVec.allOnes w) = 0#w ↔ p ∨ x = 0#w := by
  split <;> simp [*]

/-- The rules of a legal command word (spec/30_encoding.md R93), field by field. -/
theorem Command.legal_iff (c : Command) : c.legal = true ↔
    c.op ∈ commandOps ∧ c.word.extractLsb' 24 8 = 0#8 ∧ (c.op = 4#4 ∨ c.word.extractLsb' 8 16 = 0#16) ∧
      c.word.extractLsb' 7 1 = 0#1 ∧ ((c.op = 2#4 ∨ c.op = 3#4) ∨ c.word.extractLsb' 4 3 = 0#3) := by
  have hop (op : BitVec 4) : (decide (1#4 ≤ op) && decide (op ≤ 8#4)) = decide (op ∈ commandOps) := by
    revert op
    decide
  have bit7 : c.word.extractLsb' 7 1 = 0#1 ↔ c.word.getLsbD 7 = false := by
    simp [BitVec.eq_of_getLsbD_eq_iff]
  rw [Command.legal, Command.opDefined, hop, Command.reservedZero, Command.registerFieldsOk, Command.bankFieldsOk, bit7]
  simp only [Bool.and_eq_true, Bool.or_eq_true, Bool.not_eq_true', decide_eq_true_eq]
  tauto

/-- A word meets the row of a command's OP exactly when it has that OP and is legal. -/
theorem Command.row_iff (c : Command) {op : BitVec 4} (h : op ∈ commandOps) :
    c.word &&& opMask op = op.setWidth 32 ↔ c.op = op ∧ c.legal = true := by
  obtain ⟨m24, m8, m7, m4, m0⟩ := opMask_fields op
  obtain ⟨k24, k8, k7, k4, k0⟩ := opMatch_fields op
  rw [word_eq_iff_fields, c.legal_iff]
  simp only [BitVec.extractLsb'_and, m24, m8, m7, m4, m0, k24, k8, k7, k4, k0, BitVec.and_allOnes, and_field_eq_zero]
  constructor
  · rintro ⟨reserved, bank, bit7, register, rfl⟩
    exact ⟨rfl, h, reserved, bank, bit7, register⟩
  · rintro ⟨rfl, -, reserved, bank, bit7, register⟩
    exact ⟨reserved, bank, bit7, register, rfl⟩

/-- The rows of the commands: mask and match (spec/30_encoding.md R94). -/
def commandRows : List (Word × Word) := commandOps.map fun op => (opMask op, op.setWidth 32)

/-- The number of rows a command word meets. -/
theorem Command.count_rows (c : Command) :
    (commandRows.countP fun row => decide (c.word &&& row.1 = row.2)) = if c.legal then 1 else 0 := by
  have hrow (op : BitVec 4) (h : op ∈ commandOps) :
      decide (c.word &&& opMask op = op.setWidth 32) = (decide (c.op = op) && c.legal) := by
    rw [decide_eq_decide.mpr (c.row_iff h), Bool.decide_and, Bool.decide_eq_true]
  rw [commandRows, List.countP_map, List.countP_congr (q := fun op => decide (c.op = op) && c.legal)
    fun op h => by rw [Function.comp_apply, hrow op h]]
  cases hl : c.legal with
  | false => simp
  | true =>
    have hmem := (c.legal_iff.mp hl).1
    generalize c.op = op at hmem
    revert op
    decide

/-- A command word decodes exactly when it meets a row. -/
theorem Command.isSome_decodeCommand (c : Command) :
    (decodeCommand c).isSome = commandRows.any fun row => decide (c.word &&& row.1 = row.2) := by
  have full (w : Word) : w &&& 0xFFFFFFFF#32 = w := BitVec.and_allOnes
  simp only [decodeCommand, apply_ite Option.isSome, Option.isSome_some, Option.isSome_none, Bool.if_true_left]
  simp [commandRows, commandOps, opMask, full]

theorem decodeCommand_wireRead {w : Word} (h : w &&& 0xFFFFFF8F#32 = 0x00000002#32) (a d : Word) :
    decodeCommand ⟨w, a, d⟩ = some (.wireRead (w.getLsbD 4) (w.extractLsb' 5 2)) := by
  have h1 : w ≠ 1#32 := by
    rintro rfl
    exact absurd h (by decide)
  simp only [decodeCommand, if_neg h1, if_pos h]

/-! ### Operands -/

section operands
variable {w : Word} {op : BitVec 4} (hop : w.extractLsb' 0 4 = op)
include hop

/-- A word does not meet the row of another OP whose fields are all fixed. -/
theorem word_ne_of_op (k : Word) (h : op ≠ k.extractLsb' 0 4) : w ≠ k := by
  rintro rfl
  exact h hop.symm

/-- A word does not meet the row of WIRE_WRITE if it has another OP. -/
theorem wireWriteRow_ne_of_op (h : op ≠ 3#4) : w &&& 0xFFFFFF8F#32 ≠ 0x00000003#32 := by
  have hm : (w &&& 0xFFFFFF8F#32).extractLsb' 0 4 = op := by
    rw [BitVec.extractLsb'_and, hop]
    exact BitVec.and_allOnes
  exact word_ne_of_op hm 3#32 h

/-- Only the memory commands read `cmd.addr`. -/
theorem decodeCommand_addr (h : op ∉ [6#4, 7#4, 8#4]) (a a' d : Word) :
    decodeCommand ⟨w, a, d⟩ = decodeCommand ⟨w, a', d⟩ := by
  simp only [List.mem_cons, List.not_mem_nil, or_false, not_or] at h
  obtain ⟨h6, h7, h8⟩ := h
  simp only [decodeCommand, if_neg (word_ne_of_op hop 6#32 h6), if_neg (word_ne_of_op hop 7#32 h7),
    if_neg (word_ne_of_op hop 8#32 h8)]

/-- MEM_WRITE_HALF reads the low half of `cmd.data`; only WIRE_WRITE and MEM_WRITE read more. -/
theorem decodeCommand_low_data (h : op ∉ [3#4, 7#4]) {d d' : Word} (hd : d.extractLsb' 0 16 = d'.extractLsb' 0 16)
    (a : Word) : decodeCommand ⟨w, a, d⟩ = decodeCommand ⟨w, a, d'⟩ := by
  simp only [List.mem_cons, List.not_mem_nil, or_false, not_or] at h
  obtain ⟨h3, h7⟩ := h
  simp only [decodeCommand, if_neg (wireWriteRow_ne_of_op hop h3), if_neg (word_ne_of_op hop 7#32 h7), hd]

/-- Only WIRE_WRITE and the memory writes read `cmd.data`. -/
theorem decodeCommand_data (h : op ∉ [3#4, 7#4, 8#4]) (a d d' : Word) :
    decodeCommand ⟨w, a, d⟩ = decodeCommand ⟨w, a, d'⟩ := by
  simp only [List.mem_cons, List.not_mem_nil, or_false, not_or] at h
  obtain ⟨h3, h7, h8⟩ := h
  simp only [decodeCommand, if_neg (wireWriteRow_ne_of_op hop h3), if_neg (word_ne_of_op hop 7#32 h7),
    if_neg (word_ne_of_op hop 8#32 h8)]

end operands

end Sys2Proof

open Sys2Proof Sys2Proof.Machine

/-- Settles O1: a request row is read back from its header and word, a command row from its triple. -/
theorem decodeInvertsEncode : Obligations.DecodeInvertsEncode := by
  intro i
  unfold encode
  split
  next r d h => exact decodeFrame_of_request h
  next h => exact decodeCommand_command i h

/-- Settles O4: each row's header byte by computation, and the bytes that decode by isSome_decodeFrame. -/
theorem requestHeadersAreTheSixteen : Obligations.RequestHeadersAreTheSixteen :=
  fun d => ⟨rfl, rfl, rfl, rfl, rfl, rfl, rfl, rfl, rfl, rfl, rfl, rfl, rfl, rfl, rfl, rfl, fun h => isSome_decodeFrame h d⟩

/-- Settles O5: the bytes that decode are those of the table, which are the legal ones. -/
theorem onlyLegalHeadersDecode : Obligations.OnlyLegalHeadersDecode := by
  refine ⟨fun r => ?_, fun h d => (isSome_decodeFrame h d).trans (headerLegal_eq_mem h).symm⟩
  obtain ⟨start, apndp, rnw, a2, a3, parity, stop, park⟩ := r.getLsbD_header
  exact ⟨start, apndp, rnw, a2, a3, parity, stop, park, Sys2Proof.Laws.EncodingLegal.header_legal r⟩

/-- Settles O2: a word meets one row or none (Command.count_rows), and decodes if it meets one. -/
theorem commandDecodingIsTotal : Obligations.CommandDecodingIsTotal := by
  intro c
  refine ⟨?_, c.count_rows⟩
  rw [c.isSome_decodeCommand, Bool.eq_iff_iff, List.any_eq_true, ← List.countP_pos_iff, c.count_rows]
  cases c.legal <;> simp

/-- Settles O3: decodeCommand reads an operand only behind the rows of the commands that use it. -/
theorem unusedOperandBitsAreIgnored : Obligations.UnusedOperandBitsAreIgnored := by
  intro w a d a' d'
  refine ⟨fun h => ?_, fun h => decodeCommand_addr h (by decide) a a' d, fun h => decodeCommand_data h (by decide) a d d',
    fun h hd => decodeCommand_low_data h (by decide) hd a⟩
  have hop (op : BitVec 4) : op ∈ [1#4, 2#4, 4#4, 5#4] → op ∉ [6#4, 7#4, 8#4] ∧ op ∉ [3#4, 7#4, 8#4] := by
    revert op
    decide
  obtain ⟨haddr, hdata⟩ := hop _ h
  exact (decodeCommand_addr rfl haddr a a' d).trans (decodeCommand_data rfl hdata a' d d')

/-- Settles O6: each word meets the row of its command, and the operands are read from its fields. -/
theorem exampleCommandWordsDecode : Obligations.ExampleCommandWordsDecode :=
  ⟨decodeCommand_wireRead (by decide), decodeCommand_wireRead (by decide), fun a => decodeCommand_wireWrite (by decide) a _,
    decodeCommand_wireWrite (by decide), decodeCommand_selectBank (by decide)⟩
end

section
/-!
PROOFS. LINE_RESET and a raw read on a quiet channel (spec/41_wire_codec.md R126, R138), and the read headers that the raw read
carries (log 10).
-/
namespace Sys2Proof.Machine

/-- A line reset leaves both pins driven, SWCLK high and SWDIO low (spec/41_wire_codec.md R126). -/
theorem lineResetTrace_pins (p : Pins) : p.play (lineResetTrace p.swclkOe p.swdioOe) = ⟨true, true, true, false⟩ := by
  have hdio := Pins.play_dioMode { p with swclkOe := true } true
  rw [lineResetTrace, Pins.play_append, Pins.play_append, Pins.play_clkMode, hdio, Pins.play_drive]
  simp

/-- The line reset, from its start to the end of the command (spec/41_wire_codec.md R126). -/
theorem State.runCommand_lineReset {s : State} (hq : s.quiet) : s.startLineReset.runCommand =
    (s.startLineReset.within (lineResetTrace s.pins.swclkOe s.pins.swdioOe) s.dp s.env.levels
      (.pos 0 .idleSync 15)).endLineReset := by
  have hrun : State.runFrame frameFuel s.startLineReset = _ :=
    State.run_lineReset (s := s.startLineReset) hq s.dp s.env.levels 0 0
  rw [State.runCommand, maxFrames, State.runFrames_pos s.startLineReset_seq, hrun, State.runFrames_idle rfl,
    State.startLineReset_pins]

/-- WIRE_READ on an idle block with the link up and a good answer: the report of its one entry (spec/41_wire_codec.md R138). -/
theorem exec_wireRead_follows {s : State} {p : Bool} {a : BitVec 2} {t i0 i1 : Bool} {d : Word} {rest : List Bool}
    (hq : s.quiet) (hs : s.seq = .idle) (hl : s.linkUp = true)
    (hlv : s.env.levels = readLevels t d (parity32 d) i0 i1 ++ rest) :
    ∃ u, exec (.wireRead p a) s = .next u ∧ Follows (.wireRead p a) s u
      ⟨readTrace s.pins.swdioOe ⟨p, true, a⟩ t d (parity32 d) i0 i1, [completedFrame ⟨p, true, a⟩ d], s.cache,
        ⟨true, statusOk, ackOk, d⟩⟩ rest := by
  obtain ⟨u, hu, hf⟩ := exec_follows_of_ne (i := .wireRead p a) (as := [.read t d (parity32 d) i0 i1]) nofun hq hs rfl hl
    nofun (answered_read rfl rfl t d i0 i1 rfl) (by simpa [Answer.levels] using hlv)
  rw [frames, framesWireRead, report_read rfl, report_nil] at hf
  exact ⟨u, hu, by simpa [Report.behind, FrameOp.request, FrameOp.keeps] using hf⟩

end Sys2Proof.Machine

open Sys2Proof Sys2Proof.Machine

/-- Settles O25: on an idle block exec is the line reset, whose bit cycles State.runCommand_lineReset gives. -/
theorem lineResetRuns : Obligations.LineResetRuns := by
  intro s hq hs
  have hrun := State.runCommand_lineReset (s.begin_quiet hq .lineReset)
  have hran := (s.begin .lineReset).startLineReset.within_ran (lineResetTrace s.pins.swclkOe s.pins.swdioOe) s.dp s.env.levels
    (.pos 0 .idleSync 15)
  have hexec : exec .lineReset s = .next (s.begin .lineReset).startLineReset.runCommand :=
    congrArg _ (State.command_idle hs .lineReset _)
  refine ⟨_, hexec.trans (congrArg _ hrun), ?ended, ?exchanged, rfl, by simp, by simp, ?pins⟩
  case ended =>
    exact .of_prepare rfl rfl rfl rfl (by simp) ⟨by simp, by simp, by simp, by simp⟩
  case exchanged =>
    exact ⟨hran.of_eq rfl rfl rfl rfl rfl rfl rfl rfl rfl rfl rfl, by simp, by simp⟩
  case pins =>
    simpa using lineResetTrace_pins s.pins

/-- Settles O45: by exec_commandOf. -/
theorem requestOnIdleBlockIsTheRawCommand : Obligations.RequestOnIdleBlockIsTheRawCommand := by
  intro s i r d hs hi
  rw [exec_commandOf hs, commandOf, hi]

/-- Settles O46: a read header on an idle block is the raw read that carries it (exec_commandOf). -/
theorem readRequestsComplete : Obligations.ReadRequestsComplete := by
  intro s i r t i0 i1 d rest hi hr hq hs hl hlv
  obtain ⟨p, n, a⟩ := r
  have hn : n = true := by
    simp only [List.mem_cons, List.not_mem_nil, or_false] at hi
    obtain rfl | rfl | rfl | rfl | rfl | rfl | rfl | rfl := hi <;> cases hr <;> rfl
  subst hn
  have hc : commandOf i = .wireRead p a := by rw [commandOf, hr]; rfl
  obtain ⟨u, hu, hf⟩ := exec_wireRead_follows hq hs hl hlv
  exact ⟨u, by rw [exec_commandOf hs, hc, hu], hf.ended, ⟨hf.linkUp, hf.dapReady_of_ne nofun, hf.cache⟩, hf.exchanged⟩
end

section
/-!
PROOFS. The commands that list frames, on a quiet channel: each does what its list says (spec/42_transaction.md R160), the raw
commands and a MEM_READ whose frame fails among them. The cache at a command's start (spec/20_memory.md R82, R83) and the cache
its first frame is entered with (State.prepare) have the same report: a raw SELECT write invalidates it as its frame starts.
-/
namespace Sys2Proof.Machine

/-! ### The cache at a command's start -/

/-- A raw write's cache at its start is that of its one frame (spec/20_memory.md R82). -/
theorem startCache_wireWrite (p : Bool) (a : BitVec 2) (d : Word) (c : Cache) :
    startCache (.wireWrite p a d) c = (FrameOp.write p a d).cacheAtStart c := by
  simp [startCache, forgetsBank, FrameOp.cacheAtStart]

theorem FrameOp.cacheAtStart_idem (op : FrameOp) (c : Cache) :
    op.cacheAtStart (op.cacheAtStart c) = op.cacheAtStart c := by
  cases op with
  | read p a keep => rfl
  | select ap bank => rfl
  | write p a d =>
    simp only [FrameOp.cacheAtStart]
    split <;> rfl

/-- Answers to one plain write: its report is the same from the cache before the frame and from that of the frame's start. -/
theorem report_write_cacheAtStart {p : Bool} {a : BitVec 2} {d : Word} {as : List Answer} {c : Cache}
    (h : Answered [.write p a d] as ((FrameOp.write p a d).cacheAtStart c)) (oe : Bool) (v : Word) (ack : BitVec 3) :
    Answered [.write p a d] as c ∧ report [.write p a d] as oe ((FrameOp.write p a d).cacheAtStart c) v ack =
      report [.write p a d] as oe c v ack := by
  have hidem := (FrameOp.write p a d).cacheAtStart_idem c
  cases as with
  | nil => exact absurd h (by simp [Answered, FrameOp.hits])
  | cons x as =>
    cases x with
    | read t w q i0 i1 => exact absurd h.1 Bool.false_ne_true
    | bad t k =>
      refine ⟨h, ?_⟩
      rw [report_bad rfl, report_bad rfl]
      exact congrArg (Report.mk _ _ · _) hidem
    | write t0 t1 =>
      refine ⟨h, ?_⟩
      rw [report_write rfl, report_write rfl, report_nil, report_nil]
      exact congrArg (fun c => Report.behind ⟨[], [], c, _⟩ _ _) hidem

/-- A command's answers and report are the same from the cache at its start and from the cache its first frame is entered
with. -/
theorem report_startCache {s : State} {i : Instr} {as : List Answer} (h : Answered (frames s.par i) as (startCache i s.cache))
    (oe : Bool) (v : Word) (ack : BitVec 3) :
    Answered (frames s.par i) as (s.prepare i).cache ∧ report (frames s.par i) as oe (startCache i s.cache) v ack =
      report (frames s.par i) as oe (s.prepare i).cache v ack := by
  by_cases hp : i = .powerUp
  · subst hp
    have hc : (s.prepare .powerUp).cache = startCache .powerUp s.cache := by simp [startCache, forgetsBank]
    rw [hc]
    exact ⟨h, rfl⟩
  · rw [s.prepare_cache_of_ne hp]
    cases i with
    | wireWrite p a d =>
      rw [startCache_wireWrite] at h ⊢
      exact report_write_cacheAtStart h oe v ack
    | powerUp => exact absurd rfl hp
    | _ => exact ⟨h, rfl⟩

/-! ### Reports of a frame that fails, and of an entry that hits -/

/-- An entry that hits the cache takes no answer (spec/42_transaction.md R161). -/
theorem answered_hit {op : FrameOp} {ops : List FrameOp} {as : List Answer} {c : Cache} (h : op.hits c = true)
    (ha : Answered ops as c) : Answered (op :: ops) as c := by
  simpa only [Answered, h, if_true] using ha

/-- With a bad parity bit the read's answer is the last (spec/41_wire_codec.md R131). -/
theorem answered_parityError {op : FrameOp} {ops : List FrameOp} {c : Cache} (h : op.hits c = false)
    (hr : op.request.rnw = true) (t : Bool) {d : Word} {p : Bool} (hp : p ≠ parity32 d) (i0 i1 : Bool) :
    Answered (op :: ops) [.read t d p i0 i1] c := by
  simp only [Answered, h, hp, Bool.false_eq_true, if_false, and_true]
  exact hr

/-! ### The end of a frame on the pins -/

/-- After a read SWDIO is in input mode and SWCLK high (spec/41_wire_codec.md R132). -/
theorem Ran.readTrace_pins {s u : State} {r : Request} {t : Bool} {d : Word} {p i0 i1 : Bool}
    (h : Ran s u (readTrace s.pins.swdioOe r t d p i0 i1)) : u.pins.swdioOe = false ∧ u.pins.swclkO = true := by
  rw [h.pins]
  exact ⟨readTrace_swdioOe s.pins r t d p i0 i1, readTrace_swclkO s.pins _ r t d p i0 i1⟩

/-- After a failed ACK too (spec/41_wire_codec.md R129). -/
theorem Ran.requestTrace_pins {s u : State} {r : Request} {t : Bool} {ack : BitVec 3}
    (h : Ran s u (requestTrace s.pins.swdioOe r t ack)) : u.pins.swdioOe = false ∧ u.pins.swclkO = true := by
  rw [h.pins]
  exact ⟨requestTrace_swdioOe s.pins r t ack, requestTrace_swclkO s.pins _ r t ack⟩

theorem bitCycles_requestTrace (oe : Bool) (r : Request) (t : Bool) (ack : BitVec 3) :
    bitCycles (requestTrace oe r t ack) = 12 := by
  simp [requestTrace, ackLevels]

/-- A read frame takes 47 bit cycles, whatever its parity bit (spec/70_reset_and_hazards.md R245). -/
theorem bitCycles_readTrace (oe : Bool) (r : Request) (t : Bool) (d : Word) (p i0 i1 : Bool) :
    bitCycles (readTrace oe r t d p i0 i1) = 47 := by
  rw [readTrace, bitCycles_append, bitCycles_requestTrace, bitCycles_map_sample]
  simp

/-! ### Raw commands -/

/-- The one frame of a raw command (spec/41_wire_codec.md R138, R139). -/
def rawOp (r : Request) (d : Word) : FrameOp := if r.rnw then .read r.apndp r.a true else .write r.apndp r.a d

theorem frames_rawCommand (p : Params) (r : Request) (d : Word) : frames p (r.rawCommand d) = [rawOp r d] := by
  unfold Request.rawCommand rawOp
  split <;> rfl

theorem rawOp_request (r : Request) (d : Word) : (rawOp r d).request = r := by
  obtain ⟨p, w, a⟩ := r
  cases w <;> rfl

theorem rawOp_misses (r : Request) (d : Word) (c : Cache) : (rawOp r d).hits c = false := by
  unfold rawOp
  split <;> rfl

/-- The cache after the frame of a raw command failed is that of the command's start (spec/20_memory.md R82, R84). -/
theorem rawOp_cacheOnFault (r : Request) (d : Word) (c : Cache) :
    (rawOp r d).cacheOnFault c = startCache (r.rawCommand d) c := by
  obtain ⟨p, w, a⟩ := r
  cases w with
  | true => rfl
  | false => exact (startCache_wireWrite p a d c).symm

theorem listsFrames_rawCommand (r : Request) (d : Word) :
    listsFrames (r.rawCommand d) = true ∧ needsPower (r.rawCommand d) = false ∧ r.rawCommand d ≠ .powerUp := by
  unfold Request.rawCommand
  split <;> exact ⟨rfl, rfl, nofun⟩

end Sys2Proof.Machine

open Sys2Proof Sys2Proof.Machine

/-- Settles O43: the command is the run of its list (exec_follows), and the cache at its start has the same report. -/
theorem commandsFollowTheirFrameLists : Obligations.CommandsFollowTheirFrameLists := by
  intro s i as rest hq hs hi hl hp ha hlv
  obtain ⟨ha', hreport⟩ := report_startCache ha s.pins.swdioOe 0#32 0#3
  obtain ⟨u, hu, hf⟩ := exec_follows hq hs hi hl hp ha' hlv
  rw [← hreport] at hf
  exact ⟨u, hu, hf.ended, hf.exchanged, hf.cache, hf.linkUp, hf.dapReady⟩

/-- Settles O26: the report of the one read entry. -/
theorem wireReadReturnsTheWord : Obligations.WireReadReturnsTheWord := by
  intro s p a t i0 i1 d rest hq hs hl hlv
  obtain ⟨u, hu, hf⟩ := exec_wireRead_follows hq hs hl hlv
  exact ⟨u, hu, hf.ended, ⟨hf.linkUp, hf.dapReady_of_ne nofun, hf.cache⟩, hf.exchanged, hf.exchanged.ran.readTrace_pins⟩

/-- Settles O27: the report of the one read entry, its parity bit bad. -/
theorem wireReadParityError : Obligations.WireReadParityError := by
  intro s p a t q i0 i1 d rest hq hs hl hbad hlv
  obtain ⟨u, hu, hf⟩ := exec_follows_of_ne (i := .wireRead p a) (as := [.read t d q i0 i1]) nofun hq hs rfl hl nofun
    (answered_parityError rfl rfl t hbad i0 i1) (by simpa [Answer.levels] using hlv)
  rw [frames, framesWireRead, report_parityError rfl hbad] at hf
  exact ⟨u, hu, hf.ended, ⟨hf.linkUp, hf.dapReady_of_ne nofun, hf.cache⟩, hf.exchanged, bitCycles_readTrace ..⟩

/-- Settles O28: the report of the raw command's one entry, its ACK not OK. -/
theorem rawCommandAckFault : Obligations.RawCommandAckFault := by
  intro s p w a d t bad rest hq hs hl hbad hlv
  obtain ⟨hlist, hpow, hne⟩ := listsFrames_rawCommand ⟨p, w, a⟩ d
  have hmiss := rawOp_misses ⟨p, w, a⟩ d s.cache
  obtain ⟨u, hu, hf⟩ := exec_follows_of_ne (as := [.bad t bad]) hne hq hs hlist hl (by simp [hpow])
    (by rw [frames_rawCommand]; exact answered_bad hmiss t hbad) (by simpa [Answer.levels] using hlv)
  rw [frames_rawCommand, report_bad hmiss, rawOp_request, rawOp_cacheOnFault] at hf
  have hex : Exchanged s u (requestTrace s.pins.swdioOe ⟨p, w, a⟩ t bad) rest
      [⟨Request.header ⟨p, w, a⟩, if w then 0#32 else d, bad, .ackFault⟩] := by
    cases w <;> exact hf.exchanged
  exact ⟨u, hu, hf.ended, hex, hf.linkUp, hf.dapReady_of_ne hne, hf.cache, hex.ran.requestTrace_pins⟩

/-- Settles O37: the bank selection hits, TAR is written, and the report ends at the DRW read. -/
theorem memReadChecksTheDiscardedRead : Obligations.MemReadChecksTheDiscardedRead := by
  intro s addr a0 a1 b0 p b1 b2 old rest hq hs hl hd hhit hbad hlv
  obtain ⟨u, hu, hf⟩ := exec_follows_of_ne (i := .memRead addr) (as := [.write a0 a1, .read b0 old p b1 b2]) nofun hq hs
    rfl hl (fun _ => hd)
    (answered_hit hhit (answered_write rfl rfl a0 a1 (answered_parityError rfl rfl b0 hbad b1 b2)))
    (by simpa [Answer.levels] using hlv)
  rw [frames, framesMemRead, report_hit (op := .select memAp 0x00#8) hhit, report_write rfl, report_parityError rfl hbad] at hf
  exact ⟨u, hu, hf.ended, ⟨hf.linkUp, hf.dapReady_of_ne nofun, hf.cache⟩, hf.exchanged⟩
end

section
/-!
PROOFS. A command without a read frame never ends with PARITY_ERROR (spec/41_wire_codec.md R135): while it runs, whatever is
scheduled, every frame it stands in is a write, and only a read comes to the parity test.
-/
namespace Sys2Proof.Machine

/-! ### How a command that lists frames starts -/

/-- A command that lists frames is refused for a flag (spec/60_exceptions.md R206, R207), or runs its list. -/
theorem exec_listsFrames {s : State} {i : Instr} (hs : s.seq = .idle) (hi : listsFrames i = true) :
    (∃ st ∈ [statusNotInitialised, statusNotPowered], exec i s = .next ((s.begin i).refuse st)) ∨
      exec i s = .next ((s.prepare i).runOps (frames s.par i)) := by
  have link (hl : ¬s.linkUp = true) (body : State → State) :
      s.command i (fun s => s.requireLink body) = (s.begin i).refuse statusNotInitialised :=
    (State.command_idle hs i _).trans (if_neg hl)
  have power (hl : s.linkUp = true) (hd : ¬s.dapReady = true) (body : State → State) :
      s.command i (fun s => s.requireLink fun s => s.requirePower body) = (s.begin i).refuse statusNotPowered :=
    ((State.command_idle hs i fun s => s.requireLink fun s => s.requirePower body).trans (if_pos hl)).trans (if_neg hd)
  by_cases hl : s.linkUp = true
  · by_cases hp : needsPower i = true → s.dapReady = true
    · exact .inr (exec_runOps hs hi hl hp)
    · obtain ⟨hn, hd⟩ := Classical.not_imp.mp hp
      refine .inl ⟨statusNotPowered, by simp, ?_⟩
      cases i with
      | memRead a => exact congrArg _ (power hl hd _)
      | memWrite a d => exact congrArg _ (power hl hd _)
      | memWriteHalf a h => exact congrArg _ (power hl hd _)
      | _ => cases hn
  · refine .inl ⟨statusNotInitialised, by simp, ?_⟩
    cases i with
    | wireRead p a => exact congrArg _ (link hl _)
    | wireWrite p a d => exact congrArg _ (link hl _)
    | selectBank ap bank => exact congrArg _ (link hl _)
    | powerUp => exact congrArg _ (link hl _)
    | memRead a => exact congrArg _ (link hl _)
    | memWrite a d => exact congrArg _ (link hl _)
    | memWriteHalf a h => exact congrArg _ (link hl _)
    | _ => cases hi

/-! ### Bit cycles of a command without a read -/

/-- The command in progress lists no read frame. -/
def State.NoRead (s : State) : Prop := ∀ op ∈ s.frames, op.request.rnw = false

theorem State.NoRead.congr {s u : State} (h : s.NoRead) (cmd : u.cmd = s.cmd) (par : u.par = s.par) : u.NoRead := by
  rwa [NoRead, State.frames_eq cmd par]

/-- A command without a read stands in a write frame or in a line reset; or it has ended, with no PARITY_ERROR. -/
inductive WritesOnly (s : State) : Prop where
  | running : s.NoRead → s.seq ≠ .idle → (s.seq.inFrame = true → s.dp.reading = false) → WritesOnly s
  | ended : s.seq = .idle → s.rsp.status ≠ statusParityError → WritesOnly s

/-- Entering entries of a command without a read: a write frame starts, or the command completes. -/
theorem WritesOnly.enter {s u : State} (h : s.NoRead) (cmd : u.cmd = s.cmd) (par : u.par = s.par) (j k : Nat)
    (ack : BitVec 3) : WritesOnly (State.enter (s.frames.drop j) k ack u) := by
  obtain ⟨m, op, hop, -, he⟩ | ⟨-, he⟩ := State.enter_cases (s.frames.drop j) k ack u <;> rw [he]
  · have hw : op.request.rnw = false := h op (List.mem_of_mem_drop (List.mem_of_getElem? hop))
    refine .running (h.congr (by simpa using cmd) (by simpa using par)) (by simp) fun _ => ?_
    rw [Datapath.reading, State.startFrame_dp, header_rnw, hw]
  · exact .ended rfl (by rw [State.complete_rsp]; exact show statusOk ≠ statusParityError by decide)

/-- Of the ends of a frame only a read's is by PARITY_ERROR. -/
theorem WritesOnly.tickEnd {s t : State} (hn : s.NoRead) (hs : s.seq ≠ .idle)
    (hw : s.seq.inFrame = true → s.dp.reading = false) (h : TickEnd s t) : WritesOnly t := by
  cases h with
  | idle hq => exact absurd hq hs
  | blockReset u => exact .ended rfl (show State.reset.rsp.status ≠ _ by decide)
  | linkFailure u => exact .ended rfl (show statusTransportError ≠ _ by decide)
  | ackFault u => exact .ended rfl (show statusAckFault ≠ _ by decide)
  | parityError u k n hm hc hq hr =>
    rw [hw (by rw [hq]; rfl)] at hr
    cases hr
  | frame u k n hm => exact .enter (hn.congr hm.cmd hm.par) (by simp) (by simp) _ _ _
  | lineReset u => exact .ended rfl (show statusOk ≠ _ by decide)

/-- Every bit cycle. -/
theorem WritesOnly.tick {s : State} (h : WritesOnly s) : WritesOnly s.tickFlow.state := by
  cases h with
  | ended hq hst =>
    rw [State.tickFlow, hq]
    exact .ended hq hst
  | running hn hs hw =>
    have ht := s.tickFlow_to
    generalize s.tickFlow = f at ht
    cases ht with
    | on u hm =>
      have hal := hm.along hs s.dp.reading
      refine .running (hn.congr hm.cmd hm.par) hal.running fun hin => ?_
      exact hm.reading.trans (hw (hal.inFrame.symm.trans hin))
    | off t he => exact .tickEnd hn hs hw he

theorem WritesOnly.runCommand {s : State} (h : WritesOnly s) : WritesOnly s.runCommand :=
  State.runFrames_keeps (fun _ _ h ht => by simpa [ht] using h.tick) (fun _ _ h ht => by simpa [ht] using h.tick) _ _ h

theorem WritesOnly.status_ne {s : State} (h : WritesOnly s) (hs : s.seq = .idle) : s.rsp.status ≠ statusParityError := by
  cases h with
  | running _ hr => exact absurd hs hr
  | ended _ hst => exact hst

/-! ### Commands without a read on an idle block -/

/-- LINE_RESET, or a command whose list has no read frame. -/
def ListsNoRead (i : Instr) : Prop :=
  i = .lineReset ∨ (listsFrames i = true ∧ ∀ p, ∀ op ∈ frames p i, op.request.rnw = false)

/-- The end of a command without a read. -/
theorem exec_writesOnly {s : State} {i : Instr} (hs : s.seq = .idle) (h : ListsNoRead i) :
    ∃ t, exec i s = .next t ∧ WritesOnly t := by
  obtain rfl | ⟨hi, hn⟩ := h
  · have he : exec .lineReset s = .next (s.begin .lineReset).startLineReset.runCommand :=
      congrArg _ (State.command_idle hs .lineReset _)
    have hn : (s.begin .lineReset).NoRead := by
      rw [State.NoRead, State.begin_frames rfl]
      exact nofun
    exact ⟨_, he, WritesOnly.runCommand (.running (hn.congr rfl rfl) nofun nofun)⟩
  · have hreq := request_of_listsFrames hi
    obtain ⟨st, hst, he⟩ | he := exec_listsFrames hs hi <;> refine ⟨_, he, ?_⟩
    · refine .ended rfl ?_
      obtain rfl | rfl : st = statusNotInitialised ∨ st = statusNotPowered := by simpa using hst
      · exact show statusNotInitialised ≠ _ by decide
      · exact show statusNotPowered ≠ _ by decide
    · have hp : (s.prepare i).NoRead := by
        rw [State.NoRead, State.prepare_frames s hreq]
        exact hn s.par
      have henter := WritesOnly.enter hp rfl rfl 0 0 0#3
      rw [List.drop_zero, State.prepare_frames s hreq] at henter
      exact henter.runCommand

/-- The raw command of a write header has no read. -/
theorem rawCommand_listsNoRead {r : Request} (h : r.rnw = false) (d : Word) : ListsNoRead (r.rawCommand d) := by
  refine .inr ⟨(listsFrames_rawCommand r d).1, fun p op hop => ?_⟩
  rw [frames_rawCommand, List.mem_singleton] at hop
  rw [hop, rawOp_request, h]

end Sys2Proof.Machine

open Sys2Proof Sys2Proof.Machine

/-- Settles O53: each of these runs as a command without a read (exec_commandOf), and every command comes to its end. -/
theorem writesNeverRaiseParityError : Obligations.WritesNeverRaiseParityError := by
  intro s t i hs hi ht
  have hn : ListsNoRead (commandOf i) := by
    obtain rfl | ⟨p, a, d, rfl⟩ | ⟨ap, bank, rfl⟩ | ⟨addr, d, rfl⟩ | ⟨addr, h, rfl⟩ | ⟨r, d, hr, hw⟩ := hi
    · exact .inl rfl
    · exact rawCommand_listsNoRead (r := ⟨p, false, a⟩) rfl d
    · exact .inr ⟨rfl, by simp [commandOf, Instr.request, frames, framesSelectBank, FrameOp.request, selectRequest]⟩
    · exact .inr ⟨rfl, by simp [commandOf, Instr.request, frames, framesMemWrite, FrameOp.request, selectRequest]⟩
    · exact .inr ⟨rfl, by simp [commandOf, Instr.request, frames, framesMemWriteHalf, FrameOp.request, selectRequest]⟩
    · rw [commandOf, hr]
      exact rawCommand_listsNoRead hw d
  obtain ⟨u, hu, hw⟩ := exec_writesOnly hs hn
  rw [exec_commandOf hs, hu] at ht
  cases ht
  obtain ⟨v, hv, hidle, -⟩ := everyInstructionEnds s (commandOf i) hs
  cases hu.symm.trans hv
  exact hw.status_ne hidle
end

section
/-!
PROOFS. One bit cycle on a quiet channel (spec/41_wire_codec.md R121, R122).
-/

open Sys2Proof Sys2Proof.Machine

/-- Settles O13: the bit cycle is one event on the state (State.driveCycle_playOne). -/
theorem driveBitWaveform : Obligations.DriveBitWaveform := by
  intro s b hq ho
  refine ⟨s.playOne (.drive b), ?_, ?wave, ?pins, ?elapsed, rfl, rfl, rfl⟩
  · rw [State.driveBit, State.event_quiet hq, State.driveCycle_playOne hq.1]
  case wave => simp [State.playOne, Pins.during, ho]
  case pins => simp [State.playOne, Pins.after, ho]
  case elapsed =>
    simp only [State.playOne, Event.isCycle, if_true]
    omega

/-- Settles O14: the bit cycle is one event on the state and takes the first level (State.within_sampleBit). -/
theorem sampleBitWaveform : Obligations.SampleBitWaveform := by
  intro s b ls hq hi hl
  have hrun := State.within_sampleBit hq [] s.dp ls s.seq b (fun x u => .on (u.withDp { u.dp with par := x })) hi
  rw [← hl, State.within_nil, State.within_withDp, State.within_dp] at hrun
  have hran := s.within_ran ([] ++ [.sample b]) { s.dp with par := b } ls s.seq
  refine ⟨_, hrun, rfl, rfl, ?wave, ?pins, ?elapsed, hran.trace, hran.timer⟩
  case wave => simpa [Pins.during, hi] using hran.wave
  case pins => simp [Pins.after, hi]
  case elapsed =>
    rw [hran.elapsed, List.nil_append, bitCycles_sample, bitCycles_nil]
    omega
end

section
/-!
PROOFS. The memory commands and a POWER_UP that fails, on a quiet channel. A memory command's list is a bank selection and the
frames of its rule (spec/42_transaction.md R164 to R167): on a cache hit its report is that of these frames, on a miss theirs
behind a SELECT write. So each command's frames are reported once, for both.
-/
namespace Sys2Proof.Machine

/-- `as` answers the frames `ops` and `r` reports them, whatever the ACK before them was: `c` is the cache they begin with, `oe`
the mode of SWDIO, and the result word so far is 0. -/
structure ReportsAs (ops : List FrameOp) (as : List Answer) (oe : Bool) (c : Cache) (r : Report) : Prop where
  answered : Answered ops as c
  report (ack : BitVec 3) : report ops as oe c 0#32 ack = r

/-- The report of frames that all completed, `data` the result word and `c` the cache they left. -/
def Report.done (trace : List Event) (records : List FrameRecord) (c : Cache) (data : Word) : Report :=
  ⟨trace, records, c, ⟨true, statusOk, ackOk, data⟩⟩

/-- MEM_READ behind its bank selection: TAR, DRW discarded, RDBUFF (spec/42_transaction.md R165). -/
theorem framesMemRead_reportsAs (addr : Word) (a0 a1 b0 b1 b2 c0 c1 c2 : Bool) (old v : Word) (oe : Bool) (c : Cache) :
    ReportsAs (framesMemRead addr).tail
      [.write a0 a1, .read b0 old (parity32 old) b1 b2, .read c0 v (parity32 v) c1 c2] oe c
      (.done (writeTrace oe ⟨true, false, 1⟩ addr a0 a1 ++
          (readTrace true ⟨true, true, 3⟩ b0 old (parity32 old) b1 b2 ++
            readTrace false ⟨false, true, 3⟩ c0 v (parity32 v) c1 c2))
        [completedFrame ⟨true, false, 1⟩ addr, completedFrame ⟨true, true, 3⟩ old, completedFrame ⟨false, true, 3⟩ v] c v)
    where
  answered := answered_write rfl rfl a0 a1 (answered_read rfl rfl b0 old b1 b2 (answered_read rfl rfl c0 v c1 c2 rfl))
  report ack := by
    rw [framesMemRead, List.tail_cons, report_write rfl, report_read rfl, report_read rfl, report_nil, Report.behind,
      Report.behind, Report.behind, List.append_nil]
    rfl

/-- MEM_WRITE behind its bank selection: TAR, DRW (spec/42_transaction.md R166). -/
theorem framesMemWrite_reportsAs (addr d : Word) (a0 a1 b0 b1 oe : Bool) (c : Cache) :
    ReportsAs (framesMemWrite addr d).tail [.write a0 a1, .write b0 b1] oe c
      (.done (writeTrace oe ⟨true, false, 1⟩ addr a0 a1 ++ writeTrace true ⟨true, false, 3⟩ d b0 b1)
        [completedFrame ⟨true, false, 1⟩ addr, completedFrame ⟨true, false, 3⟩ d] c 0#32) where
  answered := answered_write rfl rfl a0 a1 (answered_write rfl rfl b0 b1 rfl)
  report ack := by
    rw [framesMemWrite, List.tail_cons, report_write rfl, report_write rfl, report_nil, Report.behind, Report.behind,
      List.append_nil]
    rfl

/-- MEM_WRITE_HALF behind its bank selection: CSW half, TAR, the DRW lane, CSW word (spec/42_transaction.md R167). -/
theorem framesMemWriteHalf_reportsAs (p : Params) (addr : Word) (h : BitVec 16) (a0 a1 b0 b1 c0 c1 d0 d1 oe : Bool) (c : Cache) :
    ReportsAs (framesMemWriteHalf p addr h).tail [.write a0 a1, .write b0 b1, .write c0 c1, .write d0 d1] oe c
      (.done (writeTrace oe ⟨true, false, 0⟩ (cswHalf p) a0 a1 ++ (writeTrace true ⟨true, false, 1⟩ addr b0 b1 ++
          (writeTrace true ⟨true, false, 3⟩ (halfLane addr h) c0 c1 ++ writeTrace true ⟨true, false, 0⟩ (cswWord p) d0 d1)))
        [completedFrame ⟨true, false, 0⟩ (cswHalf p), completedFrame ⟨true, false, 1⟩ addr,
          completedFrame ⟨true, false, 3⟩ (halfLane addr h), completedFrame ⟨true, false, 0⟩ (cswWord p)] c 0#32) where
  answered := answered_write rfl rfl a0 a1 (answered_write rfl rfl b0 b1 (answered_write rfl rfl c0 c1
    (answered_write rfl rfl d0 d1 rfl)))
  report ack := by
    rw [framesMemWriteHalf, List.tail_cons, report_write rfl, report_write rfl, report_write rfl, report_write rfl, report_nil,
      Report.behind, Report.behind, Report.behind, Report.behind, List.append_nil]
    rfl

/-- The header of an AP DRW write (spec/30_encoding.md R97). -/
theorem drwWrite_header : Request.header ⟨true, false, 3⟩ = 0xBB#8 := by decide

/-- MEM_WRITE_HALF behind its bank selection, the DRW write failed: CSW is not written again (spec/42_transaction.md R167). -/
theorem framesMemWriteHalf_reportsAs_drwFault (p : Params) (addr : Word) (h : BitVec 16) (a0 a1 b0 b1 c0 : Bool) {bad : BitVec 3}
    (hbad : bad ≠ ackOk) (oe : Bool) (c : Cache) :
    ReportsAs (framesMemWriteHalf p addr h).tail [.write a0 a1, .write b0 b1, .bad c0 bad] oe c
      ⟨writeTrace oe ⟨true, false, 0⟩ (cswHalf p) a0 a1 ++ (writeTrace true ⟨true, false, 1⟩ addr b0 b1 ++
          requestTrace true ⟨true, false, 3⟩ c0 bad),
        [completedFrame ⟨true, false, 0⟩ (cswHalf p), completedFrame ⟨true, false, 1⟩ addr,
          ⟨0xBB#8, halfLane addr h, bad, .ackFault⟩], c, ⟨true, statusAckFault, bad, 0#32⟩⟩ where
  answered := answered_write rfl rfl a0 a1 (answered_write rfl rfl b0 b1 (answered_bad rfl c0 hbad))
  report ack := by
    rw [framesMemWriteHalf, List.tail_cons, report_write rfl, report_write rfl, report_bad rfl, ← drwWrite_header]
    rfl

/-! ### A memory command and its bank selection -/

/-- The commands that need power are the memory commands: each selects bank 0 of the MEM-AP first (spec/42_transaction.md
R164). -/
theorem frames_of_needsPower {i : Instr} (h : needsPower i = true) (p : Params) :
    listsFrames i = true ∧ i ≠ .powerUp ∧ frames p i = .select memAp 0x00#8 :: (frames p i).tail := by
  cases i with
  | memRead addr => exact ⟨rfl, nofun, rfl⟩
  | memWrite addr d => exact ⟨rfl, nofun, rfl⟩
  | memWriteHalf addr h => exact ⟨rfl, nofun, rfl⟩
  | _ => cases h

section memory
variable {s : State} {i : Instr} {as : List Answer} {r : Report} {rest : List Bool} (hi : needsPower i = true) (hq : s.quiet)
  (hs : s.seq = .idle) (hl : s.linkUp = true) (hd : s.dapReady = true)
include hi hq hs hl hd

/-- A memory command on a cache hit follows the report of the frames behind its bank selection. -/
theorem exec_memory_hit (hhit : s.cache.hit 0x00#8 0x00#8 = true)
    (hr : ReportsAs (frames s.par i).tail as s.pins.swdioOe s.cache r)
    (hlv : s.env.levels = as.flatMap Answer.levels ++ rest) : ∃ u, exec i s = .next u ∧ Follows i s u r rest := by
  obtain ⟨hlist, hne, hfr⟩ := frames_of_needsPower hi s.par
  obtain ⟨u, hu, hf⟩ := exec_follows_of_ne hne hq hs hlist hl (fun _ => hd)
    (by rw [hfr]; exact answered_hit hhit hr.answered) hlv
  rw [hfr, report_hit (op := .select memAp 0x00#8) hhit, hr.report] at hf
  exact ⟨u, hu, hf⟩

/-- On a cache miss the SELECT write comes first, and the frames behind it begin with the bank selected. -/
theorem exec_memory_miss (hmiss : s.cache.hit 0x00#8 0x00#8 = false) {e0 e1 : Bool}
    (hr : ReportsAs (frames s.par i).tail as true ⟨true, 0x00#8, 0x00#8⟩ r)
    (hlv : s.env.levels = writeLevels e0 e1 ++ (as.flatMap Answer.levels ++ rest)) :
    ∃ u, exec i s = .next u ∧ Follows i s u (r.behind (writeTrace s.pins.swdioOe ⟨false, false, 2⟩ 0x00000000#32 e0 e1)
      (completedFrame ⟨false, false, 2⟩ 0x00000000#32)) rest := by
  obtain ⟨hlist, hne, hfr⟩ := frames_of_needsPower hi s.par
  obtain ⟨u, hu, hf⟩ := exec_follows_of_ne (as := .write e0 e1 :: as) hne hq hs hlist hl (fun _ => hd)
    (by rw [hfr]; exact answered_write (op := .select memAp 0x00#8) hmiss rfl e0 e1 hr.answered)
    (by simpa [Answer.levels] using hlv)
  have hc : (FrameOp.select memAp 0x00#8).cacheOnOk s.cache = ⟨true, 0x00#8, 0x00#8⟩ := rfl
  rw [hfr, report_write (op := .select memAp 0x00#8) hmiss, hc, hr.report] at hf
  exact ⟨u, hu, hf⟩

end memory

/-- A command but POWER_UP whose report keeps the cache keeps the flags too. -/
theorem Follows.sameFlags {i : Instr} {s u : State} {r : Report} {rest : List Bool} (h : Follows i s u r rest)
    (hi : i ≠ .powerUp) (hc : r.cache = s.cache) : SameFlags s u :=
  ⟨h.linkUp, h.dapReady_of_ne hi, h.cache.trans hc⟩

end Sys2Proof.Machine

open Sys2Proof Sys2Proof.Machine

/-- Settles O34: the report ends at the CSW write, behind the SELECT write that left the cache valid. -/
theorem powerUpCswFaultLeavesNotReady : Obligations.PowerUpCswFaultLeavesNotReady := by
  intro s t0 i0 i1 a0 a1 b0 b1 c0 c1 e0 id bad rest hq hs hl hbad hlv
  have hc : (s.prepare .powerUp).cache = { s.cache with valid := false } := by simp
  obtain ⟨u, hu, hf⟩ := exec_follows (i := .powerUp)
    (as := [.read t0 id (parity32 id) i0 i1, .write a0 a1, .write b0 b1, .write c0 c1, .bad e0 bad]) hq hs rfl hl nofun
    (by rw [hc]; exact answered_read rfl rfl t0 id i0 i1 (answered_write rfl rfl a0 a1 (answered_write rfl rfl b0 b1
      (answered_write rfl rfl c0 c1 (answered_bad rfl e0 hbad)))))
    (by simpa [Answer.levels] using hlv)
  rw [hc, frames, framesPowerUp, report_read rfl, report_write rfl, report_write rfl, report_write rfl, report_bad rfl] at hf
  exact ⟨u, hu, hf.ended, hf.exchanged.levels, hf.linkUp, hf.dapReady, hf.cache⟩

/-- Settles O35: the frames behind the bank selection, which hits. -/
theorem memReadOnHit : Obligations.MemReadOnHit := by
  intro s addr a0 a1 b0 b1 b2 c0 c1 c2 old v rest hq hs hl hd hhit hlv
  obtain ⟨u, hu, hf⟩ := exec_memory_hit (i := .memRead addr) rfl hq hs hl hd hhit
    (framesMemRead_reportsAs addr a0 a1 b0 b1 b2 c0 c1 c2 old v s.pins.swdioOe s.cache) (by simpa [Answer.levels] using hlv)
  exact ⟨u, hu, hf.ended, hf.sameFlags nofun rfl, hf.exchanged⟩

/-- Settles O36: the same frames behind the SELECT write, with the cache it leaves. -/
theorem memReadOnMiss : Obligations.MemReadOnMiss := by
  intro s addr e0 e1 a0 a1 b0 b1 b2 c0 c1 c2 old v rest hq hs hl hd hmiss hlv
  obtain ⟨u, hu, hf⟩ := exec_memory_miss (i := .memRead addr) rfl hq hs hl hd hmiss
    (framesMemRead_reportsAs addr a0 a1 b0 b1 b2 c0 c1 c2 old v true _) (by simpa [Answer.levels] using hlv)
  exact ⟨u, hu, hf.ended, hf.exchanged, hf.linkUp, hf.dapReady_of_ne nofun, hf.cache⟩

/-- Settles O38: the frames behind the bank selection, which hits. -/
theorem memWriteOnHit : Obligations.MemWriteOnHit := by
  intro s addr d a0 a1 b0 b1 rest hq hs hl hd hhit hlv
  obtain ⟨u, hu, hf⟩ := exec_memory_hit (i := .memWrite addr d) rfl hq hs hl hd hhit
    (framesMemWrite_reportsAs addr d a0 a1 b0 b1 s.pins.swdioOe s.cache) (by simpa [Answer.levels] using hlv)
  exact ⟨u, hu, hf.ended, hf.sameFlags nofun rfl, hf.exchanged⟩

/-- Settles O39: the same frames behind the SELECT write, with the cache it leaves. -/
theorem memWriteOnMiss : Obligations.MemWriteOnMiss := by
  intro s addr d e0 e1 a0 a1 b0 b1 rest hq hs hl hd hmiss hlv
  obtain ⟨u, hu, hf⟩ := exec_memory_miss (i := .memWrite addr d) rfl hq hs hl hd hmiss
    (framesMemWrite_reportsAs addr d a0 a1 b0 b1 true _) (by simpa [Answer.levels] using hlv)
  exact ⟨u, hu, hf.ended, hf.exchanged, hf.linkUp, hf.dapReady_of_ne nofun, hf.cache⟩

/-- Settles O40: the frames behind the bank selection, which hits. -/
theorem memWriteHalfOnHit : Obligations.MemWriteHalfOnHit := by
  intro s addr h a0 a1 b0 b1 c0 c1 d0 d1 rest hq hs hl hd hhit hlv
  obtain ⟨u, hu, hf⟩ := exec_memory_hit (i := .memWriteHalf addr h) rfl hq hs hl hd hhit
    (framesMemWriteHalf_reportsAs s.par addr h a0 a1 b0 b1 c0 c1 d0 d1 s.pins.swdioOe s.cache)
    (by simpa [Answer.levels] using hlv)
  exact ⟨u, hu, hf.ended, hf.sameFlags nofun rfl, hf.exchanged⟩

/-- Settles O41: the same frames behind the SELECT write, with the cache it leaves. -/
theorem memWriteHalfOnMiss : Obligations.MemWriteHalfOnMiss := by
  intro s addr h e0 e1 a0 a1 b0 b1 c0 c1 d0 d1 rest hq hs hl hd hmiss hlv
  obtain ⟨u, hu, hf⟩ := exec_memory_miss (i := .memWriteHalf addr h) rfl hq hs hl hd hmiss
    (framesMemWriteHalf_reportsAs s.par addr h a0 a1 b0 b1 c0 c1 d0 d1 true _) (by simpa [Answer.levels] using hlv)
  exact ⟨u, hu, hf.ended, hf.exchanged, hf.linkUp, hf.dapReady_of_ne nofun, hf.cache⟩

/-- Settles O42: the bank selection hits, and the report ends at the DRW write, before CSW is written back. -/
theorem memWriteHalfFaultLeavesHalfwordMode : Obligations.MemWriteHalfFaultLeavesHalfwordMode := by
  intro s addr h a0 a1 b0 b1 c0 bad rest hq hs hl hd hhit hbad hlv
  obtain ⟨u, hu, hf⟩ := exec_memory_hit (i := .memWriteHalf addr h) rfl hq hs hl hd hhit
    (framesMemWriteHalf_reportsAs_drwFault s.par addr h a0 a1 b0 b1 c0 hbad s.pins.swdioOe s.cache)
    (by simpa [Answer.levels] using hlv)
  exact ⟨u, hu, hf.ended, hf.sameFlags nofun rfl, hf.exchanged.levels, hf.exchanged.records⟩
end

section
/-!
PROOFS. Refusals (spec/60_exceptions.md R206 to R208, R212): what a command that may not run leaves alone, and a command port
with nothing to start.
-/
namespace Sys2Proof.Machine

/-! ### Commands that are refused -/

/-- Every command whose rule lists frames asks for the link first (spec/60_exceptions.md R206). -/
theorem exec_requireLink {s : State} {i : Instr} (hs : s.seq = .idle) (hi : listsFrames i = true) :
    ∃ body, exec i s = .next ((s.begin i).requireLink body) := by
  cases i with
  | wireRead p a => exact ⟨_, congrArg _ (State.command_idle hs _ _)⟩
  | wireWrite p a d => exact ⟨_, congrArg _ (State.command_idle hs _ _)⟩
  | selectBank ap bank => exact ⟨_, congrArg _ (State.command_idle hs _ _)⟩
  | powerUp => exact ⟨_, congrArg _ (State.command_idle hs _ _)⟩
  | memRead a => exact ⟨_, congrArg _ (State.command_idle hs _ _)⟩
  | memWrite a d => exact ⟨_, congrArg _ (State.command_idle hs _ _)⟩
  | memWriteHalf a h => exact ⟨_, congrArg _ (State.command_idle hs _ _)⟩
  | _ => cases hi

/-- A memory command asks for the link and then for the power (spec/60_exceptions.md R206, R207). -/
theorem exec_requirePower {s : State} {i : Instr} (hs : s.seq = .idle) (hi : needsPower i = true) :
    ∃ body, exec i s = .next ((s.begin i).requireLink fun u => u.requirePower body) := by
  cases i with
  | memRead a => exact ⟨_, congrArg _ (State.command_idle hs _ _)⟩
  | memWrite a d => exact ⟨_, congrArg _ (State.command_idle hs _ _)⟩
  | memWriteHalf a h => exact ⟨_, congrArg _ (State.command_idle hs _ _)⟩
  | _ => cases hi

/-- With the link down a command that lists frames is refused. -/
theorem exec_linkDown {s : State} {i : Instr} (hs : s.seq = .idle) (hi : listsFrames i = true) (hl : s.linkUp = false) :
    exec i s = .next ((s.begin i).refuse statusNotInitialised) := by
  obtain ⟨body, he⟩ := exec_requireLink hs hi
  rw [he, State.requireLink, State.begin_linkUp, hl, if_neg Bool.false_ne_true]

/-- With the link up and the power down a memory command is refused. -/
theorem exec_powerDown {s : State} {i : Instr} (hs : s.seq = .idle) (hi : needsPower i = true) (hl : s.linkUp = true)
    (hd : s.dapReady = false) : exec i s = .next ((s.begin i).refuse statusNotPowered) := by
  obtain ⟨body, he⟩ := exec_requirePower hs hi
  rw [he, State.requireLink, State.begin_linkUp, if_pos hl, State.requirePower, State.begin_dapReady, hd,
    if_neg Bool.false_ne_true]

/-- A refused command has ended, and nothing came to the wire (spec/60_exceptions.md R202). -/
theorem State.refuse_ended (s : State) {i : Instr} (hi : i.request = none) (st : BitVec 4) :
    Ended i s ((s.begin i).refuse st) st 0b000#3 0x00000000#32 ∧ SameFlags s ((s.begin i).refuse st) ∧
      Exchanged s ((s.begin i).refuse st) [] s.env.levels [] ∧ ((s.begin i).refuse st).dp = s.dp := by
  refine ⟨.of_prepare hi rfl rfl rfl (s.prepare_cmd i).symm ⟨rfl, rfl, rfl, rfl⟩, ⟨rfl, rfl, rfl⟩,
    ⟨?ran, rfl, ?records⟩, rfl⟩
  case ran => exact (Ran.refl s).of_eq rfl rfl rfl rfl rfl rfl rfl rfl rfl rfl rfl
  case records => exact (List.append_nil _).symm

/-! ### Nothing to start -/

/-- An idle block with no command on the port waits. -/
theorem step_waits {s : State} (hr : due s.env.resets = false) (hq : s.seq = .idle) (hb : s.busy = false)
    (ho : s.env.offers = []) : step s = .next (s.pass 1) := by
  have hob : (s.pass 1).env.offers = [] := ho
  rw [step, State.instant_passes hr]
  simp only [State.pass_seq, hq, State.stepIdle, State.cmdReady, State.pass_busy, hb, Bool.not_false, if_true, hob]

/-- A command is not started while another is in progress. -/
theorem exec_waits {i : Instr} (hi : i.request = none) {s : State} (hs : s.seq ≠ .idle) : exec i s = .next s := by
  cases i with
  | lineReset => exact congrArg _ (State.command_busy hs _ _)
  | wireRead p a => exact congrArg _ (State.command_busy hs _ _)
  | wireWrite p a d => exact congrArg _ (State.command_busy hs _ _)
  | selectBank ap bank => exact congrArg _ (State.command_busy hs _ _)
  | powerUp => exact congrArg _ (State.command_busy hs _ _)
  | memRead a => exact congrArg _ (State.command_busy hs _ _)
  | memWrite a d => exact congrArg _ (State.command_busy hs _ _)
  | memWriteHalf a h => exact congrArg _ (State.command_busy hs _ _)
  | _ => cases hi

/-- An illegal word decodes to no command. -/
theorem decodeCommand_illegal {c : Command} (h : c.legal = false) : decodeCommand c = none := by
  rw [← Option.not_isSome_iff_eq_none, (commandDecodingIsTotal c).1, h]
  exact Bool.false_ne_true

end Sys2Proof.Machine

open Sys2Proof Sys2Proof.Machine

/-- Settles O23: the link is down, so the command is refused before its first frame. -/
theorem notInitialisedBeforeLineReset : Obligations.NotInitialisedBeforeLineReset :=
  fun _ s hi hs hl => ⟨_, exec_linkDown hs hi hl, s.refuse_ended (request_of_listsFrames hi) _⟩

/-- Settles O24: the link is up and the power down, so the command is refused before its first frame. -/
theorem notPoweredBeforePowerUp : Obligations.NotPoweredBeforePowerUp := by
  intro i s hi hs hl hd
  have hreq := request_of_listsFrames (frames_of_needsPower hi s.par).1
  exact ⟨_, exec_powerDown hs hi hl hd, s.refuse_ended hreq _⟩

/-- Settles O19. -/
theorem commandPortWaits : Obligations.CommandPortWaits :=
  ⟨fun _ => step_waits, fun _ _ hi => exec_waits hi⟩

/-- Settles O22: the accepted word decodes to nothing, and refusing it leaves the block as idle as it was. -/
theorem illegalCommandChangesOnlyTheResponse : Obligations.IllegalCommandChangesOnlyTheResponse := by
  intro s c rest hr hq hb ho hc
  rw [step_of_offer hr hq hb ho, State.dispatch, State.current, decodeCommand_illegal hc]
  cases s
  cases hq
  cases hb
  rfl
end

section
/-!
PROOFS. A failure of the channel (spec/60_exceptions.md R205): every bit cycle begins with a wire event, so what comes in the
place of the next wire event comes in the place of the bit cycle.
-/
namespace Sys2Proof.Machine

/-! ### The first wire event of a bit cycle -/

/-- A flow from `s` whose first action is a wire event. -/
def BeginsWithEvent (s : State) (f : Flow) : Prop := ∃ k, f = s.event k

theorem State.event_andThen (s : State) (k j : State → Flow) :
    (s.event k).andThen j = s.event fun u => (k u).andThen j := by
  unfold State.event
  split
  · rfl
  · split <;> rfl

theorem State.sampleBit_begins (s : State) (k : Bool → State → Flow) : BeginsWithEvent s (s.sampleBit k) := ⟨_, rfl⟩

theorem State.driveBit_begins (s : State) (b : Bool) (k : State → Flow) :
    BeginsWithEvent s ((s.driveBit b).andThen k) := ⟨_, s.event_andThen _ k⟩

/-- A SetMode that is no event leaves the first event to what follows it. -/
theorem State.setMode_begins {s : State} (pin : Pin) (out : Bool) {k : State → Flow} (hk : BeginsWithEvent s (k s)) :
    BeginsWithEvent s ((s.setMode pin out).andThen k) := by
  unfold State.setMode
  split
  · exact hk
  · exact ⟨_, s.event_andThen _ k⟩

theorem State.setModeFirst_begins {s : State} (n : Nat) (out : Bool) {k : State → Flow} (hk : BeginsWithEvent s (k s)) :
    BeginsWithEvent s ((s.setModeFirst n out).andThen k) := by
  unfold State.setModeFirst
  split
  · exact State.setMode_begins _ _ hk
  · exact hk

/-- Every bit cycle of a command in progress (spec/10_state.md R42). -/
theorem State.tickFlow_begins {s : State} (hs : s.seq ≠ .idle) : BeginsWithEvent s s.tickFlow := by
  cases hq : s.seq with
  | idle => exact absurd hq hs
  | pos k ph n =>
    rw [State.tickFlow, hq]
    cases ph with
    | header => exact State.setModeFirst_begins n true (s.driveBit_begins _ _)
    | trn1 => exact State.setMode_begins _ _ (s.sampleBit_begins _)
    | ack => exact s.sampleBit_begins _
    | trn2 => exact s.sampleBit_begins _
    | data =>
      simp only [State.tickData]
      split
      · exact s.sampleBit_begins _
      · exact State.setModeFirst_begins n true (s.driveBit_begins _ _)
    | parity =>
      simp only [State.tickParity]
      split
      · exact s.sampleBit_begins _
      · exact s.driveBit_begins _ _
    | idle =>
      simp only [State.tickIdle]
      split
      · exact s.sampleBit_begins _
      · exact s.driveBit_begins _ _
    | ones =>
      have hfirst (j : State → Flow) :
          BeginsWithEvent s ((s.setModeFirst n true).andThen fun u => (u.driveBit true).andThen j) :=
        State.setModeFirst_begins n true (s.driveBit_begins _ _)
      simp only [State.tickOnes, Flow.andThen_assoc]
      split
      · exact State.setMode_begins _ _ (hfirst _)
      · exact hfirst _
    | magic => exact s.driveBit_begins _ _
    | idleSync => exact s.driveBit_begins _ _

/-! ### What a channel failure leaves -/

/-- With or without a frame to record (spec/60_exceptions.md R202, R205). -/
theorem State.raiseTransportError_failed (s : State) : Failed s s.raiseTransportError := by
  have hc (v : State) (hv : v.selecting = s.selecting) (hcache : v.cache = s.cache) :
      v.forgetBankIfSelecting.cache = if s.selecting then { s.cache with valid := false } else s.cache := by
    rw [State.forgetBankIfSelecting_cache, hv, hcache]
    cases s.selecting <;> rfl
  simp only [State.raiseTransportError]
  split
  · exact ⟨rfl, rfl, rfl, rfl, rfl, hc _ rfl rfl, by simp, by simp, by simp, by simp, by simp⟩
  · exact ⟨rfl, rfl, rfl, rfl, rfl, hc _ rfl rfl, by simp, by simp, by simp, by simp, by simp⟩

/-- A failure leaves the same whether or not the event it replaces has passed for the schedules. -/
theorem Failed.of_passEvent {s u : State} (h : Failed s.passEvent u) : Failed s u :=
  ⟨h.rsp, h.busy, h.seq, h.linkUp, h.dapReady, h.cache, h.par, h.offers, h.trace, h.wave, h.elapsed⟩

end Sys2Proof.Machine

open Sys2Proof Sys2Proof.Machine

/-- Settles O51: the failure comes in the place of the next wire event, and every bit cycle begins with one. -/
theorem channelFailureEndsTheCommand : Obligations.ChannelFailureEndsTheCommand := by
  intro s hr hl hp
  have he (k : State → Flow) : s.event k = .off s.passEvent.raiseTransportError := by
    have hf : s.linkFailsNow = true := by rw [State.linkFailsNow, hl, hp, Bool.and_self]
    rw [State.event, hr, if_neg Bool.false_ne_true, hf, if_pos rfl]
  refine ⟨_, s.passEvent.raiseTransportError_failed.of_passEvent, he, fun _ => he _, fun _ => he _,
    fun pin out hm => ?mode, fun hs => ?tick⟩
  case mode => rw [State.setMode, if_neg hm, he]
  case tick =>
    obtain ⟨k, hk⟩ := State.tickFlow_begins hs
    have ht := hk.trans (he k)
    exact ⟨ht, State.runFrame_off ht 95⟩
end

section
/-!
PROOFS. Which responses there are (spec/60_exceptions.md R200 to R205): the responses with which a command can end are listed
once (CommandResponse), and every bit cycle, instruction and step leaves the response in force, puts none in force, or puts one
of these (RespondsFrom).
-/
namespace Sys2Proof.Machine

/-! ### The responses of commands -/

/-- The responses with which a command can end, on a platform with the parameters `p` (spec/60_exceptions.md R201, R202). -/
inductive CommandResponse (p : Params) : Response → Prop where
  | completed (ack : BitVec 3) (data : Word) : ack = ackOk ∨ ack = 0#3 → CommandResponse p ⟨true, statusOk, ack, data⟩
  | ackFault (ack : BitVec 3) : ack ≠ ackOk → CommandResponse p ⟨true, statusAckFault, ack, 0#32⟩
  | parityError (data : Word) : CommandResponse p ⟨true, statusParityError, ackOk, data⟩
  | linkFailure : p.phyCanFail = true → CommandResponse p ⟨true, statusTransportError, 0#3, 0#32⟩
  | refused (st : BitVec 4) : st ∈ [statusNotInitialised, statusNotPowered, statusIllegalCommand] →
      CommandResponse p ⟨true, st, 0#3, 0#32⟩

/-- Each has its form (spec/60_exceptions.md R200 to R202). -/
theorem CommandResponse.shape {p : Params} {r : Response} (h : CommandResponse p r) : ResponseShape r := by
  cases h with
  | completed ack data ha => exact ⟨by simp [statusOk], fun _ => ha, nofun, nofun, nofun⟩
  | ackFault ack ha => exact ⟨by simp [statusAckFault], nofun, fun _ => ⟨ha, rfl⟩, nofun, nofun⟩
  | parityError data => exact ⟨by simp [statusParityError], nofun, nofun, fun _ => rfl, nofun⟩
  | linkFailure _ => exact ⟨by simp [statusTransportError], nofun, nofun, nofun, fun _ => ⟨rfl, rfl⟩⟩
  | refused st hst =>
    obtain rfl | rfl | rfl : st = statusNotInitialised ∨ st = statusNotPowered ∨ st = statusIllegalCommand := by
      simpa using hst
    all_goals exact ⟨by decide, nofun, nofun, nofun, fun _ => ⟨rfl, rfl⟩⟩

/-- TRANSPORT_ERROR is of a channel that can fail (spec/60_exceptions.md R205). -/
theorem CommandResponse.status_ne {p : Params} {r : Response} (h : CommandResponse p r) (hp : p.phyCanFail = false) :
    r.status ≠ statusTransportError := by
  cases h with
  | completed => exact show statusOk ≠ _ by decide
  | ackFault => exact show statusAckFault ≠ _ by decide
  | parityError => exact show statusParityError ≠ _ by decide
  | linkFailure hf => exact absurd (hp.symm.trans hf) Bool.false_ne_true
  | refused st hst =>
    revert st
    decide

/-- The response in force in `t`, if there is one, is that of `s` or one with which a command ends. -/
structure RespondsFrom (s t : State) : Prop where
  par : t.par = s.par
  rsp : t.rsp.valid = true → t.rsp = s.rsp ∨ CommandResponse s.par t.rsp

theorem RespondsFrom.of_eq {s t : State} (par : t.par = s.par) (rsp : t.rsp = s.rsp) : RespondsFrom s t :=
  ⟨par, fun _ => .inl rsp⟩

theorem RespondsFrom.refl (s : State) : RespondsFrom s s := .of_eq rfl rfl

/-- With no response in force. -/
theorem RespondsFrom.of_invalid {s t : State} (par : t.par = s.par) (rsp : t.rsp.valid = false) : RespondsFrom s t :=
  ⟨par, fun h => absurd (rsp.symm.trans h) Bool.false_ne_true⟩

theorem RespondsFrom.of_command {s t : State} (par : t.par = s.par) (rsp : CommandResponse s.par t.rsp) :
    RespondsFrom s t := ⟨par, fun _ => .inr rsp⟩

theorem RespondsFrom.trans {s u t : State} (h : RespondsFrom s u) (g : RespondsFrom u t) : RespondsFrom s t where
  par := g.par.trans h.par
  rsp hv := by
    obtain he | hc := g.rsp hv
    · rw [he] at hv ⊢
      exact h.rsp hv
    · exact .inr (h.par ▸ hc)

theorem State.blockReset_respondsFrom (s : State) : RespondsFrom s s.blockReset := .of_invalid rfl rfl

/-! ### Bit cycles -/

/-- Entering the remaining entries of a command: a frame starts, or the command completes. -/
theorem State.enter_respondsFrom (ops : List FrameOp) (k : Nat) {ack : BitVec 3} (ha : ack = ackOk ∨ ack = 0#3) (s : State) :
    RespondsFrom s (State.enter ops k ack s) := by
  obtain ⟨j, op, -, -, he⟩ | ⟨-, he⟩ := State.enter_cases ops k ack s <;> rw [he]
  · exact .of_eq (by simp) (by simp)
  · exact .of_command (by simp) (by rw [State.complete_rsp]; exact .completed ack _ ha)

/-- Every end of a frame or of a line reset. -/
theorem TickEnd.respondsFrom {s t : State} (h : TickEnd s t) : RespondsFrom s t := by
  cases h with
  | idle => exact .refl s
  | blockReset u hp => exact .of_invalid hp rfl
  | linkFailure u hm hf => exact .of_command (u.raiseTransportError_failed.par.trans hm.par) (.linkFailure (hm.par ▸ hf))
  | ackFault u k n hm _ _ hack => exact .of_command (by simpa [State.raiseAckFault] using hm.par) (.ackFault _ hack)
  | parityError u k n hm => exact .of_command hm.par (.parityError _)
  | frame u k n hm =>
    have hu : RespondsFrom s (u.frameEffect.logFrame .completed).scrub :=
      .of_eq (by simpa using hm.par) (by simpa using hm.rsp)
    exact hu.trans (State.enter_respondsFrom _ _ (.inl rfl) _)
  | lineReset u k n hm => exact .of_command hm.par (.completed 0#3 0#32 (.inr rfl))

/-- Every bit cycle. -/
theorem State.tickFlow_respondsFrom (s : State) : RespondsFrom s s.tickFlow.state := by
  have ht := s.tickFlow_to
  generalize s.tickFlow = f at ht
  cases ht with
  | on u hm => exact .of_eq hm.par hm.rsp
  | off t he => exact he.respondsFrom

section tick
variable {s u t : State} (h : RespondsFrom s u)
include h

theorem RespondsFrom.tick_on (ht : u.tickFlow = .on t) : RespondsFrom s t :=
  h.trans (by simpa [ht] using u.tickFlow_respondsFrom)

theorem RespondsFrom.tick_off (ht : u.tickFlow = .off t) : RespondsFrom s t :=
  h.trans (by simpa [ht] using u.tickFlow_respondsFrom)

end tick

theorem State.runFrame_respondsFrom (fuel : Nat) (s : State) : RespondsFrom s (State.runFrame fuel s) :=
  State.runFrame_keeps (fun _ _ => RespondsFrom.tick_on) (fun _ _ => RespondsFrom.tick_off) fuel s (.refl s)

theorem State.runCommand_respondsFrom (s : State) : RespondsFrom s s.runCommand :=
  State.runFrames_keeps (fun _ _ => RespondsFrom.tick_on) (fun _ _ => RespondsFrom.tick_off) maxFrames s (.refl s)

theorem State.runOps_respondsFrom (s : State) (ops : List FrameOp) : RespondsFrom s (s.runOps ops) :=
  (State.enter_respondsFrom ops 0 (.inr rfl) s).trans (State.runCommand_respondsFrom _)

/-! ### Instructions -/

theorem State.begin_respondsFrom (s : State) (i : Instr) : RespondsFrom s (s.begin i) := .of_invalid rfl rfl

/-- A row that is no request header is LINE_RESET, or its rule lists frames. -/
theorem listsFrames_of_request {i : Instr} (h : i.request = none) : i = .lineReset ∨ listsFrames i = true := by
  revert h
  cases i <;> simp [Instr.request, listsFrames]

/-- Every instruction on an idle block, from the state in which its command starts. -/
theorem exec_idle_respondsFrom {s : State} (hs : s.seq = .idle) (i : Instr) :
    ∃ t, exec i s = .next t ∧ RespondsFrom (s.begin (commandOf i)) t := by
  rw [exec_commandOf hs]
  obtain hl | hl := listsFrames_of_request (commandOf_request i)
  · rw [hl]
    have he : exec .lineReset s = .next (s.begin .lineReset).startLineReset.runCommand :=
      congrArg _ (State.command_idle hs .lineReset _)
    have hb : RespondsFrom (s.begin .lineReset) (s.begin .lineReset).startLineReset := .of_eq rfl rfl
    exact ⟨_, he, hb.trans (State.runCommand_respondsFrom _)⟩
  · obtain ⟨st, hst, he⟩ | he := exec_listsFrames hs hl <;> refine ⟨_, he, ?_⟩
    · exact .of_command rfl (.refused st (List.mem_append_left [statusIllegalCommand] hst))
    · have hp : RespondsFrom (s.begin (commandOf i)) (s.prepare (commandOf i)) :=
        .of_eq (by simp) (by unfold State.prepare; split <;> rfl)
      exact hp.trans (State.runOps_respondsFrom _ _)

/-- Every instruction inside a command: a request header where its frame stands runs that frame, nothing else starts. -/
theorem exec_inside_respondsFrom {s : State} (hs : s.seq ≠ .idle) (i : Instr) :
    ∃ t, exec i s = .next t ∧ RespondsFrom s t := by
  cases hi : i.request with
  | none => exact ⟨s, exec_waits hi hs, .refl s⟩
  | some rd =>
    obtain ⟨r, d⟩ := rd
    refine ⟨_, exec_request hi s, ?_⟩
    unfold State.request
    split
    · exact absurd (by assumption) hs
    · split
      · have hf (k : Nat) : RespondsFrom s (s.startFrame k r d) := .of_eq (by simp) (by simp)
        exact (hf _).trans (State.runFrame_respondsFrom _ _)
      · exact .refl s

/-! ### Steps -/

/-- An instant: block reset lands, or the action behind it goes on. -/
theorem State.instant_respondsFrom {s t : State} {k : State → Host.Outcome State Fault Refusal}
    (hk : k (s.pass 1) = .next t → RespondsFrom (s.pass 1) t) (ht : s.instant k = .next t) : RespondsFrom s t := by
  unfold State.instant at ht
  split at ht
  · cases ht
    exact s.blockReset_respondsFrom
  · have hp : RespondsFrom s (s.pass 1) := .of_eq rfl rfl
    exact hp.trans (hk ht)

/-- The accepted command runs, or its word is illegal (spec/60_exceptions.md R208). -/
theorem State.dispatch_respondsFrom {s t : State} (hs : s.seq = .idle) (ht : s.dispatch = .next t) : RespondsFrom s t := by
  unfold State.dispatch at ht
  split at ht
  · rename_i i _
    obtain ⟨u, hu, hr⟩ := exec_idle_respondsFrom hs i
    cases hu.symm.trans ht
    exact (s.begin_respondsFrom _).trans hr
  · cases ht
    exact .of_command rfl (.refused _ (by simp))

theorem State.stepIdle_respondsFrom {s t : State} (hs : s.seq = .idle) (ht : s.stepIdle = .next t) : RespondsFrom s t := by
  unfold State.stepIdle at ht
  split at ht
  · split at ht
    · cases ht
      exact .refl s
    · rename_i c rest _
      have ha : RespondsFrom s (s.accept c rest) := .of_invalid rfl rfl
      exact ha.trans (State.instant_respondsFrom (State.dispatch_respondsFrom hs) ht)
  · exact State.dispatch_respondsFrom hs ht

theorem State.stepInside_respondsFrom {s t : State} (hs : s.seq ≠ .idle) (ht : s.stepInside = .next t) :
    RespondsFrom s t := by
  unfold State.stepInside at ht
  split at ht
  · rename_i i _
    obtain ⟨u, hu, hr⟩ := exec_inside_respondsFrom hs i
    cases hu.symm.trans ht
    exact hr
  · cases ht
    exact State.runFrame_respondsFrom _ _

theorem step_respondsFrom {s t : State} (ht : step s = .next t) : RespondsFrom s t := by
  refine State.instant_respondsFrom (fun ht => ?_) ht
  split at ht
  · exact State.stepIdle_respondsFrom (by assumption) ht
  · rename_i hq
    exact State.stepInside_respondsFrom (by rw [hq]; nofun) ht

end Sys2Proof.Machine

open Sys2Proof Sys2Proof.Machine

/-- Settles O52: the command starts with no response in force and ends with one of its own, or is abandoned by block reset. -/
theorem noTransportErrorUnlessTheChannelCanFail : Obligations.NoTransportErrorUnlessTheChannelCanFail := by
  intro s t i hs hp ht
  obtain ⟨u, hu, hr⟩ := exec_idle_respondsFrom hs i
  cases hu.symm.trans ht
  obtain ⟨v, hv, -, -, hvalid | hreset⟩ := everyInstructionEnds s i hs <;> cases hu.symm.trans hv
  · obtain he | hc := hr.rsp hvalid
    · rw [he] at hvalid
      cases hvalid
    · exact hc.status_ne hp
  · rw [hreset]
    exact show statusOk ≠ statusTransportError by decide

/-- Settles O58: a response in force after a step was so before, or is one with which a command ends. -/
theorem stepKeepsTheResponseForm : Obligations.StepKeepsTheResponseForm := by
  intro s t hs ht hv
  obtain he | hc := (step_respondsFrom ht).rsp hv
  · rw [he] at hv ⊢
    exact hs hv
  · exact hc.shape
end

section
/-!
PROOFS. The bit cycles of a command (spec/70_reset_and_hazards.md R245, R246), counted in the report of its list of frames, one
entry at a time.
-/
namespace Sys2Proof.Machine

/-- The bit cycles of a line reset (spec/70_reset_and_hazards.md R245). -/
theorem bitCycles_lineResetTrace (clkOe dioOe : Bool) : bitCycles (lineResetTrace clkOe dioOe) = 96 := by
  simp [lineResetTrace]

/-- A write frame takes 47 bit cycles (spec/70_reset_and_hazards.md R245). -/
theorem bitCycles_writeTrace (oe : Bool) (r : Request) (d : Word) (t0 t1 : Bool) :
    bitCycles (writeTrace oe r d t0 t1) = 47 := by
  rw [writeTrace, bitCycles_append, bitCycles_append, bitCycles_append, bitCycles_requestTrace, bitCycles_map_drive]
  simp

/-! ### The frames of a list -/

/-- How many entries of a list come to the wire, `c` the cache before them, when every frame ends OK: all but the bank selections
that hit (spec/42_transaction.md R161). -/
def wireFrames : List FrameOp → Cache → Nat
  | [], _ => 0
  | op :: ops, c => if op.hits c then wireFrames ops c else wireFrames ops (op.cacheOnOk c) + 1

section wireFrames
variable {op : FrameOp} {c : Cache}

theorem wireFrames_hit (h : op.hits c = true) (ops : List FrameOp) : wireFrames (op :: ops) c = wireFrames ops c :=
  if_pos h

theorem wireFrames_miss (h : op.hits c = false) (ops : List FrameOp) :
    wireFrames (op :: ops) c = wireFrames ops (op.cacheOnOk c) + 1 := by
  rw [wireFrames, h, if_neg Bool.false_ne_true]

/-- Entries none of which is a SELECT write all come to the wire. -/
theorem wireFrames_noSelect {ops : List FrameOp} (h : ∀ op ∈ ops, op.request ≠ selectRequest) (c : Cache) :
    wireFrames ops c = ops.length := by
  induction ops generalizing c with
  | nil => rfl
  | cons op ops ih =>
    obtain ⟨hop, hops⟩ := List.forall_mem_cons.mp h
    rw [wireFrames_miss (FrameOp.hits_of_request_ne hop c), ih hops, List.length_cons]

/-- A bank selection and entries behind it that are no SELECT write. -/
theorem wireFrames_select {ops : List FrameOp} (h : ∀ op ∈ ops, op.request ≠ selectRequest) (ap bank : Byte) (c : Cache) :
    wireFrames (.select ap bank :: ops) c = if c.hit ap bank then ops.length else ops.length + 1 := by
  rw [wireFrames, wireFrames_noSelect h, wireFrames_noSelect h]
  rfl

end wireFrames

/-- The table of spec/70_reset_and_hazards.md R246 counts the frames of the lists. -/
theorem wireFrames_frames {i : Instr} (hi : listsFrames i = true) (p : Params) (c : Cache) :
    wireFrames (frames p i) (startCache i c) = frameCount c i := by
  cases i with
  | wireRead apndp a => rfl
  | wireWrite apndp a d => rfl
  | selectBank ap bank => exact wireFrames_select (List.forall_mem_nil _) ap bank c
  | powerUp => rfl
  | memRead addr => exact wireFrames_select (by simp [FrameOp.request, selectRequest]) memAp 0x00#8 c
  | memWrite addr d => exact wireFrames_select (by simp [FrameOp.request, selectRequest]) memAp 0x00#8 c
  | memWriteHalf addr h => exact wireFrames_select (by simp [FrameOp.request, selectRequest]) memAp 0x00#8 c
  | _ => cases hi

/-! ### The bit cycles of a report -/

/-- A read leaves the cache alone (spec/20_memory.md R84). -/
theorem FrameOp.cacheOnOk_of_read {op : FrameOp} (h : op.request.rnw = true) (c : Cache) : op.cacheOnOk c = c := by
  cases op with
  | read p a keep => rfl
  | write p a d => cases h
  | select ap bank => cases h

/-- The bit cycles of a report under the answers `as`, `n` being the frames of its list when every ACK is OK
(spec/70_reset_and_hazards.md R245, R246). An ACK that is not OK saves its frame 35 of the 47. -/
structure Report.Counts (r : Report) (as : List Answer) (n : Nat) : Prop where
  answers : bitCycles r.trace = (as.map Answer.cycles).sum
  ok : r.rsp.status = statusOk → bitCycles r.trace = 47 * n
  ackFault : r.rsp.status = statusAckFault → bitCycles r.trace + 35 = 47 * as.length
  parityError : r.rsp.status = statusParityError → bitCycles r.trace = 47 * as.length

/-- A frame of 47 bit cycles before the rest of a command. -/
theorem Report.Counts.behind {r : Report} {as : List Answer} {n : Nat} (h : r.Counts as n) {es : List Event} {a : Answer}
    (hes : bitCycles es = 47) (ha : a.cycles = 47) (f : FrameRecord) : (r.behind es f).Counts (a :: as) (n + 1) := by
  have hadd : bitCycles (r.behind es f).trace = 47 + bitCycles r.trace := by
    rw [Report.behind_trace, bitCycles_append, hes]
  constructor <;> rw [hadd]
  case answers => rw [h.answers, List.map_cons, List.sum_cons, ha]
  case ok =>
    intro hst
    rw [h.ok hst]
    ring
  case ackFault =>
    intro hst
    rw [add_assoc, h.ackFault hst, List.length_cons]
    ring
  case parityError =>
    intro hst
    rw [h.parityError hst, List.length_cons]
    ring

/-- The report of an answered list counts its answers, and the frames of the list if it ends OK. -/
theorem report_counts (ops : List FrameOp) : ∀ (as : List Answer) (oe : Bool) (c : Cache) (v : Word) (ack : BitVec 3),
    Answered ops as c → (report ops as oe c v ack).Counts as (wireFrames ops c) := by
  induction ops with
  | nil =>
    rintro as oe c v ack rfl
    exact ⟨rfl, fun _ => rfl, nofun, nofun⟩
  | cons op ops ih =>
    intro as oe c v ack ha
    cases hm : op.hits c with
    | true =>
      simp only [Answered, hm, if_true] at ha
      rw [report_hit hm, wireFrames_hit hm]
      exact ih as oe c v ack ha
    | false =>
      simp only [Answered, hm, Bool.false_eq_true, if_false] at ha
      rw [wireFrames_miss hm]
      cases as with
      | nil => exact ha.elim
      | cons a as =>
        cases a with
        | bad t k =>
          obtain ⟨-, rfl⟩ := ha
          have hcycles := bitCycles_requestTrace oe op.request t k
          rw [report_bad hm]
          exact ⟨hcycles, nofun, fun _ => congrArg (· + 35) hcycles, nofun⟩
        | write t0 t1 =>
          rw [report_write hm]
          exact (ih as true _ v ackOk ha.2).behind (bitCycles_writeTrace ..) rfl _
        | read t d p i0 i1 =>
          obtain ⟨hr, ha⟩ := ha
          have hcycles := bitCycles_readTrace oe op.request t d p i0 i1
          by_cases hp : p = parity32 d
          · rw [if_pos hp] at ha
            subst hp
            rw [report_read hm, FrameOp.cacheOnOk_of_read hr]
            exact (ih as false c _ ackOk ha).behind hcycles rfl _
          · rw [if_neg hp] at ha
            subst ha
            rw [report_parityError hm hp]
            exact ⟨hcycles, nofun, nofun, fun _ => hcycles⟩

/-- The bit cycles that a command adds to the trace. -/
theorem Exchanged.bitCycles_eq {s u : State} {es : List Event} {ls : List Bool} {fs : List FrameRecord}
    (h : Exchanged s u es ls fs) : bitCycles u.obs.trace = bitCycles s.obs.trace + bitCycles es := by
  rw [h.ran.trace, bitCycles_append]

end Sys2Proof.Machine

open Sys2Proof Sys2Proof.Machine

/-- Settles O16: a line reset shows lineResetTrace, a command with answers the trace of its report, a refused command none. -/
theorem bitCycleCounts : Obligations.BitCycleCounts := by
  refine ⟨?lineReset, ?answered, ?refused⟩
  case lineReset =>
    intro s hq hs
    obtain ⟨u, hu, -, hex, -⟩ := lineResetRuns s hq hs
    exact ⟨u, hu, by rw [hex.bitCycles_eq, bitCycles_lineResetTrace]⟩
  case answered =>
    intro s i as rest hq hs hi hl hp ha hlv
    obtain ⟨u, hu, hend, hex, -⟩ := commandsFollowTheirFrameLists s i as rest hq hs hi hl hp ha hlv
    obtain ⟨hanswers, hok, hfault, hparity⟩ := report_counts _ as s.pins.swdioOe _ 0#32 0#3 ha
    rw [wireFrames_frames hi] at hok
    refine ⟨u, hu, ?_⟩
    rw [hex.bitCycles_eq, hend.rsp]
    refine ⟨congrArg _ hanswers, fun hst => congrArg _ (hok hst), fun hst => ?_, fun hst => congrArg _ (hparity hst)⟩
    have hcycles := hfault hst
    omega
  case refused =>
    intro s i hi hs hflag
    cases hl : s.linkUp with
    | false =>
      obtain ⟨u, hu, -, -, hex, -⟩ := notInitialisedBeforeLineReset i s hi hs hl
      exact ⟨u, hu, hex.bitCycles_eq⟩
    | true =>
      obtain ⟨hn, hd⟩ := hflag.resolve_left (by simp [hl])
      obtain ⟨u, hu, -, -, hex, -⟩ := notPoweredBeforePowerUp i s hn hs hl hd
      exact ⟨u, hu, hex.bitCycles_eq⟩
end
